-- ==== Sys2Proof/Word.lean ====
section
/-!
DEFINITION. The word types of the block: bytes, 16-bit words and 12-bit address fields. Every value of this ISA is
unsigned (00_scope.md R18), so no signed view is defined.
-/

namespace Sys2Proof

/-- One unsigned byte: a general register, a timer, a memory byte or the immediate kk (00_scope.md R9, R12). -/
abbrev Byte := BitVec 8

/-- One unsigned 16-bit value: an opcode, PC, I or a call-stack slot (00_scope.md R10, R11). -/
abbrev Word := BitVec 16

/-- The 12-bit address field nnn of an opcode (30_encoding.md R71). -/
abbrev Addr12 := BitVec 12

/-- A general register's index, the 4-bit x or y field (10_state.md R20). -/
abbrev RegIdx := Fin 16

/-- zext_16: a 12-bit address written to PC or I (30_encoding.md R73). -/
def zext16 (a : Addr12) : Word := a.setWidth 16

end Sys2Proof
end

