-- ==== Sys2Proof/Config.lean ====
section
/-!
DEFINITION. What an implementation fixes (00_scope.md section 3): the sizes, the five behaviour parameters of R17 with
the spec's defaults, and the two input values that nothing constrains.
-/

namespace Sys2Proof.Config

/-- The memory has 4096 bytes, addresses 0x000 to 0xFFF (R8). -/
abbrev memSize : Nat := 4096

/-- Programs start at 0x200 (R15). -/
abbrev loadBase : Nat := 0x200

/-- A program may be at most 3584 bytes long (R15). -/
abbrev maxProgram : Nat := 3584

/-- The framebuffer has 64 columns (R13). -/
abbrev screenWidth : Nat := 64

/-- The framebuffer has 32 rows (R13). -/
abbrev screenHeight : Nat := 32

/-- ZERO_FAMILY_DECODE: how family 0 selects (30_encoding.md R74; D2). -/
inductive ZeroFamilyDecode where
  | lowNibble
  | exact
  deriving DecidableEq, Repr

/-- DRAW_EDGE_MODE: what a sprite pixel outside the grid does (43_draw.md R120; D9). -/
inductive DrawEdgeMode where
  | fault
  | wrap
  | clip
  deriving DecidableEq, Repr

/-- VF_WRITE_ORDER: which write comes last when an ALU instruction has both a result and a flag (41_alu.md R95; D12). -/
inductive VfWriteOrder where
  | flagLast
  | resultLast
  deriving DecidableEq, Repr

/-- SHIFT_SOURCE: which register 8xy6 and 8xyE shift (41_alu.md R104, R106; D13). -/
inductive ShiftSource where
  | vx
  | vy
  deriving DecidableEq, Repr

/-- I_AFTER_BLOCK: what Fx55 and Fx65 leave in I (42_index_memory.md R116; D15). -/
inductive IAfterBlock where
  | unchanged
  | increment
  deriving DecidableEq, Repr

/-- The five behaviour parameters. R17 lets a model take them as arguments; here they are a field of State that no step
writes, so a statement about every state is a statement about every parameter value. -/
structure Params where
  zeroFamilyDecode : ZeroFamilyDecode
  drawEdgeMode : DrawEdgeMode
  vfWriteOrder : VfWriteOrder
  shiftSource : ShiftSource
  iAfterBlock : IAfterBlock
  deriving DecidableEq, Repr

/-- R17's defaults: the spec's own decisions D2, D9, D12, D13 and D15 (log 7). -/
def defaultParams : Params where
  zeroFamilyDecode := .lowNibble
  drawEdgeMode := .fault
  vfWriteOrder := .flagLast
  shiftSource := .vx
  iAfterBlock := .unchanged

/-- FREE VALUE (DESIGN CHOICE, log 9): the key sample of a tick for which the host has queued no input, by the number of
the tick. Any 16 key states may arrive at any tick (93_implementation_defined.md U17); nothing constrains it. -/
opaque freeKeys : Nat → BitVec 16

/-- FREE VALUE (DESIGN CHOICE, log 9): the random byte of a tick for which the host has queued no input, by the number of
the tick. Any byte may be drawn at each Cxkk (41_alu.md R108; U8); nothing constrains it. -/
opaque freeRandom : Nat → Byte

end Sys2Proof.Config
end

