-- ==== Sys2Proof/Syntax.lean ====
section
/-!
DEFINITION. The 34 instructions, one constructor per row of spec/opcode_table.json, in the table's order
(30_encoding.md R79). Register and immediate operands have exactly their field's width; the row count of DRW is a count.
-/

namespace Sys2Proof

/-- The instruction set (00_scope.md R2: exactly 34 instructions). -/
inductive Instr where
  /-- 00E0 CLS (R84). -/
  | cls
  /-- 00EE RET (R85). -/
  | ret
  /-- 1nnn JP addr (R86). -/
  | jp (nnn : Addr12)
  /-- 2nnn CALL addr (R87). -/
  | call (nnn : Addr12)
  /-- 3xkk SE Vx, byte (R89). -/
  | seByte (x : RegIdx) (kk : Byte)
  /-- 4xkk SNE Vx, byte (R90). -/
  | sneByte (x : RegIdx) (kk : Byte)
  /-- 5xy0 SE Vx, Vy (R91). -/
  | seReg (x y : RegIdx)
  /-- 6xkk LD Vx, byte (R96). -/
  | ldByte (x : RegIdx) (kk : Byte)
  /-- 7xkk ADD Vx, byte (R97). -/
  | addByte (x : RegIdx) (kk : Byte)
  /-- 8xy0 LD Vx, Vy (R98). -/
  | ldReg (x y : RegIdx)
  /-- 8xy1 OR Vx, Vy (R99). -/
  | orReg (x y : RegIdx)
  /-- 8xy2 AND Vx, Vy (R100). -/
  | andReg (x y : RegIdx)
  /-- 8xy3 XOR Vx, Vy (R101). -/
  | xorReg (x y : RegIdx)
  /-- 8xy4 ADD Vx, Vy (R102). -/
  | addReg (x y : RegIdx)
  /-- 8xy5 SUB Vx, Vy (R103). -/
  | subReg (x y : RegIdx)
  /-- 8xy6 SHR Vx, Vy (R104). -/
  | shrReg (x y : RegIdx)
  /-- 8xy7 SUBN Vx, Vy (R105). -/
  | subnReg (x y : RegIdx)
  /-- 8xyE SHL Vx, Vy (R106). -/
  | shlReg (x y : RegIdx)
  /-- 9xy0 SNE Vx, Vy (R92). -/
  | sneReg (x y : RegIdx)
  /-- Annn LD I, addr (R110). -/
  | ldI (nnn : Addr12)
  /-- Bnnn JP V0, addr (R88). -/
  | jpV0 (nnn : Addr12)
  /-- Cxkk RND Vx, byte (R107). -/
  | rnd (x : RegIdx) (kk : Byte)
  /-- Dxyn DRW Vx, Vy, nibble (R121). -/
  | drw (x y : RegIdx) (n : Nat)
  /-- Ex9E SKP Vx (R125). -/
  | skp (x : RegIdx)
  /-- ExA1 SKNP Vx (R126). -/
  | sknp (x : RegIdx)
  /-- Fx07 LD Vx, DT (R128). -/
  | ldVxDt (x : RegIdx)
  /-- Fx0A LD Vx, K (R127). -/
  | ldVxK (x : RegIdx)
  /-- Fx15 LD DT, Vx (R129). -/
  | ldDtVx (x : RegIdx)
  /-- Fx18 LD ST, Vx (R130). -/
  | ldStVx (x : RegIdx)
  /-- Fx1E ADD I, Vx (R111). -/
  | addI (x : RegIdx)
  /-- Fx29 LD F, Vx (R112). -/
  | ldF (x : RegIdx)
  /-- Fx33 LD B, Vx (R113). -/
  | ldB (x : RegIdx)
  /-- Fx55 LD [I], Vx (R114). -/
  | storeRegs (x : RegIdx)
  /-- Fx65 LD Vx, [I] (R115). -/
  | loadRegs (x : RegIdx)
  deriving DecidableEq, Repr

end Sys2Proof
end

