-- ==== Sys2Proof/Decode.lean ====
section
/-!
DEFINITION. The decoder, from the tree of 30_encoding.md R74, and the encoder, from the formats of R72; and the opcode
table's masks and patterns, kept apart from both so that each can be checked against them. Words that are only ignored
bits apart decode to one instruction (R78), and the encoder writes those bits as the canonical spelling has them (D26).
-/

namespace Sys2Proof

open Config (ZeroFamilyDecode)

/-- Why bytes do not decode. -/
inductive DecodeError where
  /-- The word matches no pattern of its family (30_encoding.md R75); the word is carried. -/
  | unknownOpcode (op : Word)
  /-- Fewer than the two bytes that every instruction takes (R70); how many there were is carried. -/
  | truncated (bytes : Nat)
  deriving DecidableEq, Repr

/-! ## Fields (R71) -/

/-- t = op[15:12], the family. -/
def opFamily (op : Word) : Nat := (op.extractLsb' 12 4).toNat

/-- x = op[11:8]. -/
def opX (op : Word) : RegIdx := ⟨(op.extractLsb' 8 4).toNat, (op.extractLsb' 8 4).isLt⟩

/-- y = op[7:4]. -/
def opY (op : Word) : RegIdx := ⟨(op.extractLsb' 4 4).toNat, (op.extractLsb' 4 4).isLt⟩

/-- n = op[3:0]. -/
def opN (op : Word) : Nat := (op.extractLsb' 0 4).toNat

/-- kk = op[7:0]. -/
def opKK (op : Word) : Byte := op.extractLsb' 0 8

/-- nnn = op[11:0]. -/
def opNNN (op : Word) : Addr12 := op.extractLsb' 0 12

/-! ## The decode tree (R74) -/

/-- Family 0: by the low nibble alone, or by the whole word, as ZERO_FAMILY_DECODE says. -/
def decodeFamily0 (z : ZeroFamilyDecode) (op : Word) : Except DecodeError Instr :=
  match z with
  | .lowNibble =>
    match opN op with
    | 0x0 => .ok .cls
    | 0xE => .ok .ret
    | _ => .error (.unknownOpcode op)
  | .exact =>
    if op = 0x00E0#16 then .ok .cls
    else if op = 0x00EE#16 then .ok .ret
    else .error (.unknownOpcode op)

/-- Family 8: by the low nibble. -/
def decodeFamily8 (op : Word) : Except DecodeError Instr :=
  match opN op with
  | 0x0 => .ok (.ldReg (opX op) (opY op))
  | 0x1 => .ok (.orReg (opX op) (opY op))
  | 0x2 => .ok (.andReg (opX op) (opY op))
  | 0x3 => .ok (.xorReg (opX op) (opY op))
  | 0x4 => .ok (.addReg (opX op) (opY op))
  | 0x5 => .ok (.subReg (opX op) (opY op))
  | 0x6 => .ok (.shrReg (opX op) (opY op))
  | 0x7 => .ok (.subnReg (opX op) (opY op))
  | 0xE => .ok (.shlReg (opX op) (opY op))
  | _ => .error (.unknownOpcode op)

/-- Family E: by the low byte (D3). -/
def decodeFamilyE (op : Word) : Except DecodeError Instr :=
  match (opKK op).toNat with
  | 0x9E => .ok (.skp (opX op))
  | 0xA1 => .ok (.sknp (opX op))
  | _ => .error (.unknownOpcode op)

/-- Family F: by the low byte. -/
def decodeFamilyF (op : Word) : Except DecodeError Instr :=
  match (opKK op).toNat with
  | 0x07 => .ok (.ldVxDt (opX op))
  | 0x0A => .ok (.ldVxK (opX op))
  | 0x15 => .ok (.ldDtVx (opX op))
  | 0x18 => .ok (.ldStVx (opX op))
  | 0x1E => .ok (.addI (opX op))
  | 0x29 => .ok (.ldF (opX op))
  | 0x33 => .ok (.ldB (opX op))
  | 0x55 => .ok (.storeRegs (opX op))
  | 0x65 => .ok (.loadRegs (opX op))
  | _ => .error (.unknownOpcode op)

/-- The decoder of one opcode word. Families 5 and 9 ignore op[3:0] (R78). -/
def decode (z : ZeroFamilyDecode) (op : Word) : Except DecodeError Instr :=
  match opFamily op with
  | 0x0 => decodeFamily0 z op
  | 0x1 => .ok (.jp (opNNN op))
  | 0x2 => .ok (.call (opNNN op))
  | 0x3 => .ok (.seByte (opX op) (opKK op))
  | 0x4 => .ok (.sneByte (opX op) (opKK op))
  | 0x5 => .ok (.seReg (opX op) (opY op))
  | 0x6 => .ok (.ldByte (opX op) (opKK op))
  | 0x7 => .ok (.addByte (opX op) (opKK op))
  | 0x8 => decodeFamily8 op
  | 0x9 => .ok (.sneReg (opX op) (opY op))
  | 0xA => .ok (.ldI (opNNN op))
  | 0xB => .ok (.jpV0 (opNNN op))
  | 0xC => .ok (.rnd (opX op) (opKK op))
  | 0xD => .ok (.drw (opX op) (opY op) (opN op))
  | 0xE => decodeFamilyE op
  | 0xF => decodeFamilyF op
  | _ => .error (.unknownOpcode op)

/-- The opcode word of two bytes, (hi << 8) | lo: the first holds bits 15..8 (20_memory.md R57, R59). -/
def opcodeOfBytes (hi lo : Byte) : Word := (hi.setWidth 16 <<< 8) ||| lo.setWidth 16

/-- The decoder of bytes: it takes exactly two and hands back the rest (R70). -/
def decodeBytes (z : ZeroFamilyDecode) : List Byte → Except DecodeError (Instr × List Byte)
  | hi :: lo :: rest =>
    match decode z (opcodeOfBytes hi lo) with
    | .ok i => .ok (i, rest)
    | .error e => .error e
  | short => .error (.truncated short.length)

/-! ## The encoder (R72, R73, R78) -/

/-- A 4-bit field placed at bits lo + 3 .. lo. -/
def nibbleAt (lo : Nat) (f : BitVec 4) : Word := f.setWidth 16 <<< lo

/-- A register index as its 4-bit field. -/
def regField (x : RegIdx) : BitVec 4 := BitVec.ofNat 4 x.val

/-- Format NNN. -/
def encodeNNN (t : BitVec 4) (nnn : Addr12) : Word := nibbleAt 12 t ||| nnn.setWidth 16

/-- Formats XKK and X: the low byte is the immediate or the selector. -/
def encodeXKK (t : BitVec 4) (x : RegIdx) (kk : Byte) : Word :=
  nibbleAt 12 t ||| nibbleAt 8 (regField x) ||| kk.setWidth 16

/-- Formats XY and XYN: the last nibble is a selector, zero where it is ignored, or the row count. -/
def encodeXYN (t : BitVec 4) (x y : RegIdx) (n : BitVec 4) : Word :=
  nibbleAt 12 t ||| nibbleAt 8 (regField x) ||| nibbleAt 4 (regField y) ||| nibbleAt 0 n

/-- The word of an instruction, in the canonical spelling. -/
def encode : Instr → Word
  | .cls => 0x00E0#16
  | .ret => 0x00EE#16
  | .jp nnn => encodeNNN 0x1 nnn
  | .call nnn => encodeNNN 0x2 nnn
  | .seByte x kk => encodeXKK 0x3 x kk
  | .sneByte x kk => encodeXKK 0x4 x kk
  | .seReg x y => encodeXYN 0x5 x y 0x0
  | .ldByte x kk => encodeXKK 0x6 x kk
  | .addByte x kk => encodeXKK 0x7 x kk
  | .ldReg x y => encodeXYN 0x8 x y 0x0
  | .orReg x y => encodeXYN 0x8 x y 0x1
  | .andReg x y => encodeXYN 0x8 x y 0x2
  | .xorReg x y => encodeXYN 0x8 x y 0x3
  | .addReg x y => encodeXYN 0x8 x y 0x4
  | .subReg x y => encodeXYN 0x8 x y 0x5
  | .shrReg x y => encodeXYN 0x8 x y 0x6
  | .subnReg x y => encodeXYN 0x8 x y 0x7
  | .shlReg x y => encodeXYN 0x8 x y 0xE
  | .sneReg x y => encodeXYN 0x9 x y 0x0
  | .ldI nnn => encodeNNN 0xA nnn
  | .jpV0 nnn => encodeNNN 0xB nnn
  | .rnd x kk => encodeXKK 0xC x kk
  | .drw x y n => encodeXYN 0xD x y (BitVec.ofNat 4 n)
  | .skp x => encodeXKK 0xE x 0x9E
  | .sknp x => encodeXKK 0xE x 0xA1
  | .ldVxDt x => encodeXKK 0xF x 0x07
  | .ldVxK x => encodeXKK 0xF x 0x0A
  | .ldDtVx x => encodeXKK 0xF x 0x15
  | .ldStVx x => encodeXKK 0xF x 0x18
  | .addI x => encodeXKK 0xF x 0x1E
  | .ldF x => encodeXKK 0xF x 0x29
  | .ldB x => encodeXKK 0xF x 0x33
  | .storeRegs x => encodeXKK 0xF x 0x55
  | .loadRegs x => encodeXKK 0xF x 0x65

/-! ## The opcode table, as masks and patterns (opcode_table.json) -/

/-- The bits of a word that select the instruction: the table's mask, or mask_exact under EXACT. -/
def opcodeMask (z : ZeroFamilyDecode) : Instr → Word
  | .cls | .ret => match z with
    | .lowNibble => 0xF00F#16
    | .exact => 0xFFFF#16
  | .jp _ | .call _ | .ldI _ | .jpV0 _ => 0xF000#16
  | .seByte _ _ | .sneByte _ _ | .ldByte _ _ | .addByte _ _ | .rnd _ _ => 0xF000#16
  | .seReg _ _ | .sneReg _ _ => 0xF000#16
  | .ldReg _ _ | .orReg _ _ | .andReg _ _ | .xorReg _ _ => 0xF00F#16
  | .addReg _ _ | .subReg _ _ | .shrReg _ _ | .subnReg _ _ | .shlReg _ _ => 0xF00F#16
  | .drw _ _ _ => 0xF000#16
  | .skp _ | .sknp _ => 0xF0FF#16
  | .ldVxDt _ | .ldVxK _ | .ldDtVx _ | .ldStVx _ => 0xF0FF#16
  | .addI _ | .ldF _ | .ldB _ | .storeRegs _ | .loadRegs _ => 0xF0FF#16

/-- What those bits hold: the table's match, or match_exact under EXACT. -/
def opcodePattern (z : ZeroFamilyDecode) : Instr → Word
  | .cls => match z with
    | .lowNibble => 0x0000#16
    | .exact => 0x00E0#16
  | .ret => match z with
    | .lowNibble => 0x000E#16
    | .exact => 0x00EE#16
  | .jp _ => 0x1000#16
  | .call _ => 0x2000#16
  | .seByte _ _ => 0x3000#16
  | .sneByte _ _ => 0x4000#16
  | .seReg _ _ => 0x5000#16
  | .ldByte _ _ => 0x6000#16
  | .addByte _ _ => 0x7000#16
  | .ldReg _ _ => 0x8000#16
  | .orReg _ _ => 0x8001#16
  | .andReg _ _ => 0x8002#16
  | .xorReg _ _ => 0x8003#16
  | .addReg _ _ => 0x8004#16
  | .subReg _ _ => 0x8005#16
  | .shrReg _ _ => 0x8006#16
  | .subnReg _ _ => 0x8007#16
  | .shlReg _ _ => 0x800E#16
  | .sneReg _ _ => 0x9000#16
  | .ldI _ => 0xA000#16
  | .jpV0 _ => 0xB000#16
  | .rnd _ _ => 0xC000#16
  | .drw _ _ _ => 0xD000#16
  | .skp _ => 0xE09E#16
  | .sknp _ => 0xE0A1#16
  | .ldVxDt _ => 0xF007#16
  | .ldVxK _ => 0xF00A#16
  | .ldDtVx _ => 0xF015#16
  | .ldStVx _ => 0xF018#16
  | .addI _ => 0xF01E#16
  | .ldF _ => 0xF029#16
  | .ldB _ => 0xF033#16
  | .storeRegs _ => 0xF055#16
  | .loadRegs _ => 0xF065#16

/-- The bits the decoder reads at all for an instruction: the selecting bits and the operand fields. The others are R78's
ignored bits: bits 3..0 of families 5 and 9, and bits 11..4 of family 0 under LOW_NIBBLE. -/
def opcodeReadBits (z : ZeroFamilyDecode) : Instr → Word
  | .cls => opcodeMask z .cls
  | .ret => opcodeMask z .ret
  | .seReg _ _ | .sneReg _ _ => 0xFFF0#16
  | _ => 0xFFFF#16

/-! ## The opcode table's numbering of a word -/

/-- The bytes of an instruction of nbits bits whose table word is w, lowest address first: one big-endian word, every
bit above nbits zero (20_memory.md R57). -/
def tableWordBytes (nbits w : Nat) : List Byte :=
  [(BitVec.ofNat 16 (w % 2 ^ nbits)).extractLsb' 8 8, (BitVec.ofNat 16 (w % 2 ^ nbits)).extractLsb' 0 8]

/-- What the decoder reads from a word numbered as spec/opcode_table.json numbers it, under R17's default parameters. -/
def decodeTableWord (nbits w : Nat) : Option Instr :=
  match decodeBytes Config.defaultParams.zeroFamilyDecode (tableWordBytes nbits w) with
  | .ok (i, _) => some i
  | .error _ => none

end Sys2Proof
end

