-- ==== Sys2Proof/Machine/Framebuffer.lean ====
section
/-!
DEFINITION. The framebuffer: 32 rows of 64 one-bit pixels, fb[y][x] with column x and row y (10_state.md R38). A row is
held as 64 bits, bit x being column x (the numbering of the bits is the model's own; only pixel and toggle see it).
-/

namespace Sys2Proof.Machine

/-- fb: array[32] of array[64] of bit. -/
abbrev Framebuffer := Vector (BitVec 64) 32

/-- Every pixel 0. -/
def Framebuffer.blank : Framebuffer := Vector.replicate 32 0

/-- fb[py][px], false outside the grid. -/
def Framebuffer.pixel (fb : Framebuffer) (px py : Nat) : Bool :=
  if h : py < 32 then fb[py].getLsbD px else false

/-- fb[py][px] <- fb[py][px] ^ 1, nothing outside the grid. -/
def Framebuffer.toggle (fb : Framebuffer) (px py : Nat) : Framebuffer :=
  if h : py < 32 then fb.set py (fb[py] ^^^ BitVec.twoPow 64 px) h else fb

end Sys2Proof.Machine
end

