-- ==== Sys2Proof/Machine/Memory.lean ====
section
/-!
DEFINITION. Memory: one flat space of 4096 bytes (20_memory.md R52), held as a list of (address, byte) cells in one
canonical form: addresses strictly rising and below 4096, and no cell equal to what an unlisted address reads as. So equal
memories are equal lists.
-/

namespace Sys2Proof.Machine

/-- The memory: only the bytes that differ from `Memory.background` are listed. -/
abbrev Memory := List Host.Cell

/-- R69's default font table, 16 glyphs of 5 bytes (PRESUMED: the spec takes the bytes from general knowledge, D22; log 8). -/
def defaultFont : List Byte :=
  [0xF0, 0x90, 0x90, 0x90, 0xF0, 0x20, 0x60, 0x20, 0x20, 0x70] ++
  [0xF0, 0x10, 0xF0, 0x80, 0xF0, 0xF0, 0x10, 0xF0, 0x10, 0xF0] ++
  [0x90, 0x90, 0xF0, 0x10, 0x10, 0xF0, 0x80, 0xF0, 0x10, 0xF0] ++
  [0xF0, 0x80, 0xF0, 0x90, 0xF0, 0xF0, 0x10, 0x20, 0x40, 0x40] ++
  [0xF0, 0x90, 0xF0, 0x90, 0xF0, 0xF0, 0x90, 0xF0, 0x10, 0xF0] ++
  [0xF0, 0x90, 0xF0, 0x90, 0x90, 0xE0, 0x90, 0xE0, 0x90, 0xE0] ++
  [0xF0, 0x80, 0x80, 0x80, 0xF0, 0xE0, 0x90, 0x90, 0x90, 0xE0] ++
  [0xF0, 0x80, 0xF0, 0x80, 0xF0, 0xF0, 0x80, 0xF0, 0x80, 0x80]

/-- What an unlisted address reads as: the font table at 0x000 to 0x04F (R66), and 0x00 elsewhere (DESIGN CHOICE for
INIT_MEM, which 10_state.md R50 leaves open; log 4). -/
def Memory.background (a : Nat) : Byte := defaultFont.getD a 0

/-- mem[a] (R55). -/
def Memory.read : Memory → Nat → Byte
  | [], a => Memory.background a
  | (k, c) :: m, a => if a = k then c else Memory.read m a

/-- mem[a] <- b (R55), keeping the canonical form: writing what an unlisted address reads as removes the cell. -/
def Memory.write : Memory → Nat → Byte → Memory
  | [], a, b => if b = Memory.background a then [] else [(a, b)]
  | (k, c) :: m, a, b =>
    if a < k then (if b = Memory.background a then (k, c) :: m else (a, b) :: (k, c) :: m)
    else if a = k then (if b = Memory.background a then m else (a, b) :: m)
    else (k, c) :: Memory.write m a b

/-- mem[a], mem[a + 1], … <- the bytes of a list, lowest address first. -/
def Memory.writeBytes : Memory → Nat → List Byte → Memory
  | m, _, [] => m
  | m, a, b :: bs => Memory.writeBytes (m.write a b) (a + 1) bs

/-- The canonical form of the cells from address lo up. -/
def Memory.wfFrom : Nat → Memory → Bool
  | _, [] => true
  | lo, (k, c) :: m =>
    decide (lo ≤ k) && decide (k < Config.memSize) && decide (c ≠ Memory.background k) && Memory.wfFrom (k + 1) m

/-- The canonical form of a whole memory. -/
def Memory.wf (m : Memory) : Bool := Memory.wfFrom 0 m

end Sys2Proof.Machine
end

