-- ==== Sys2Proof/Machine/State.lean ====
section
/-!
DEFINITION. The state of the block (10_state.md section 1), what a tick exchanges with the host (60_exceptions.md R145),
the reasons a step can stop, and the state after reset (10_state.md section 11). State is plain data.
-/

namespace Sys2Proof.Machine

/-- Why the block halted, with the information recorded (60_exceptions.md R133, in the order of its codes). -/
inductive HaltReason where
  /-- Code 0, normal termination: the fetch found PC ≥ 4096; PC is recorded. -/
  | pcOutOfRange (pc : Word)
  /-- Code 1: the decoder does not know the word; the word is recorded. -/
  | unknownOpcode (op : Word)
  /-- Code 2: CALL with SP = 16. -/
  | stackOverflow
  /-- Code 3: RET with SP = 0 (D7). -/
  | stackUnderflow
  /-- Code 4: DRW, LD B, LD [I] or LD Vx, [I] reaches address 4096; the lowest such address is recorded (D6). -/
  | memoryOutOfRange (addr : Nat)
  /-- Code 5: the fetch found PC = 4095; PC is recorded (D5). -/
  | fetchOutOfRange (pc : Word)
  /-- Code 6: DRW under DRAW_EDGE_MODE = FAULT; the first target outside the grid is recorded (D9). -/
  | drawOutOfBounds (col row : Nat)
  /-- Code 7: SKP or SKNP with V[x] > 15; V[x] is recorded (D18). -/
  | keyIndexOutOfRange (key : Byte)
  deriving DecidableEq, Repr

/-- The run state (10_state.md R40): HALTED is terminal. -/
inductive RunState where
  | running
  | halted (reason : HaltReason)
  deriving DecidableEq, Repr

/-- What the host supplies for one tick (60_exceptions.md R145): the 16 key states, bit k for key k, sampled once before
the step (10_state.md R39), and the random byte that Cxkk uses if it runs (41_alu.md R108). -/
structure TickInput where
  keys : BitVec 16
  rnd : Byte
  deriving DecidableEq, Repr

/-- What a tick emits (60_exceptions.md R145). LoadRejected is the load's result, not a tick's event. -/
inductive Event where
  | displayClear
  | displayDraw (fb : Framebuffer)
  | audioStart
  | audioStop
  | halted (reason : HaltReason)
  deriving DecidableEq, Repr

/-- The state of the block. -/
structure State where
  /-- mem (R52). -/
  mem : Memory
  /-- V0 to VF; V15 is the flag register VF (10_state.md R20, R23). -/
  v : Vector Byte 16
  /-- I (R27). -/
  i : Word
  /-- PC (R28). -/
  pc : Word
  /-- The call stack's slots (R33). -/
  stack : Vector Word 16
  /-- SP, the number of occupied slots, 0 to 16 (R33). -/
  sp : Fin 17
  /-- DT, the delay timer (R37). -/
  dt : Byte
  /-- ST, the sound timer (R37). -/
  st : Byte
  /-- fb (R38). -/
  fb : Framebuffer
  /-- RUNNING or HALTED(reason, info) (R40). -/
  run : RunState
  /-- A program has been loaded (20_memory.md R68). -/
  loaded : Bool
  /-- MODEL's own place for R17's behaviour parameters; no step writes it (log 7). -/
  params : Config.Params
  /-- MODEL's own: the inputs of the coming ticks, oldest first (log 9). -/
  inputs : List TickInput
  /-- MODEL's own: how many ticks have completed; it numbers the free inputs (log 9). -/
  ticks : Nat
  /-- MODEL's own place for the output list of the latest tick (60_exceptions.md R141; log 10). -/
  events : List Event
  deriving DecidableEq, Repr

/-- Why the machine stops. -/
inductive Fault where
  /-- Raised by step, and by nothing else, in a HALTED state: "A HALTED block takes no further step" (10_state.md R40).
  Safe: the spec gives the block no transition there. -/
  | blockHalted (reason : HaltReason)
  deriving DecidableEq, Repr

/-- Why the machine gives no meaning. -/
inductive Refusal where
  /-- Raised by no arm of exec any more: every instruction of the table has its meaning. Safe. -/
  | notModelled (mnemonic : String)
  /-- Raised by step when no program has been loaded (20_memory.md R68, D28). Safe: the spec has no transition there. -/
  | noProgramLoaded
  /-- Raised by State.loadProgram, never by step, on a second load (20_memory.md R68, D28). Safe, for the same reason. -/
  | programAlreadyLoaded
  deriving DecidableEq, Repr

/-- What a step or a meaning answers. -/
abbrev Result := Host.Outcome State Fault Refusal

/-- The block right after construction. PC, DT, ST, SP, the font and RUNNING are the spec's (10_state.md R43, R44, R45,
R50, R51); the registers, I, the framebuffer, the other memory and the slots are values the model names (DESIGN CHOICE,
logs 1 to 5); the parameters are R17's defaults (log 7); no program is loaded yet (log 6). -/
def State.reset : State where
  mem := []
  v := Vector.replicate 16 0
  i := 0
  pc := 0x200
  stack := Vector.replicate 16 0
  sp := 0
  dt := 0
  st := 0
  fb := Framebuffer.blank
  run := .running
  loaded := false
  params := Config.defaultParams
  inputs := []
  ticks := 0
  events := []

end Sys2Proof.Machine
end

