-- ==== Sys2Proof/Machine/Ops.lean ====
section
/-!
DEFINITION. The named operations the meanings share: registers, PC, the call stack, the range check of a memory access,
the fetch, and taking a halt (the block's only exception, which has no return: 60_exceptions.md R132, R137).
-/

namespace Sys2Proof.Machine

/-! ## General registers -/

/-- V[F], the flag register (10_state.md R23). -/
def vf : RegIdx := 15

/-- V[x] (10_state.md R21). -/
def State.reg (s : State) (x : RegIdx) : Byte := s.v[x]

/-- V[x] <- b; no register is hardwired (10_state.md R21). -/
def State.setReg (x : RegIdx) (b : Byte) (s : State) : State := { s with v := s.v.set x b }

/-- All of V0 to VF <- v. -/
def State.setRegs (v : Vector Byte 16) (s : State) : State := { s with v := v }

/-! ## Index register, timers, memory and framebuffer -/

/-- I <- w. -/
def State.setIndex (w : Word) (s : State) : State := { s with i := w }

/-- DT <- b. -/
def State.setDelay (b : Byte) (s : State) : State := { s with dt := b }

/-- ST <- b. -/
def State.setSound (b : Byte) (s : State) : State := { s with st := b }

/-- mem[a], mem[a + 1], … <- bs. -/
def State.storeBytes (a : Nat) (bs : List Byte) (s : State) : State := { s with mem := s.mem.writeBytes a bs }

/-- fb <- f. -/
def State.setFramebuffer (f : Framebuffer) (s : State) : State := { s with fb := f }

/-! ## Program counter (10_state.md R28, R29) -/

/-- PC <- w. -/
def State.setPc (w : Word) (s : State) : State := { s with pc := w }

/-- next: PC <- PC + 2. -/
def State.advance (s : State) : State := s.setPc (s.pc + 2)

/-- A skip instruction's PC (40_control.md R82): PC + 4 if the condition holds, PC + 2 if not. -/
def State.skipIf (c : Bool) (s : State) : State := s.setPc (s.pc + (if c then 4 else 2))

/-! ## Events and halts -/

/-- emit E: the event goes to the end of the tick's output list (60_exceptions.md R145). -/
def State.emit (e : Event) (s : State) : State := { s with events := s.events ++ [e] }

/-- Taking a halt, the only exception (60_exceptions.md R132): the run state becomes HALTED(reason, info) and the host is
told once; nothing else is written (R134), nothing is saved anywhere and control goes nowhere (R136). -/
def State.takeHalt (h : HaltReason) (s : State) : State := { s with run := .halted h, events := s.events ++ [.halted h] }

/-- halt <Reason>(info), as what an instruction answers: the block goes to its HALTED state (log 11). -/
def halt (h : HaltReason) (s : State) : Result := .next (s.takeHalt h)

/-- The code of a halt reason (60_exceptions.md R133, D30). -/
def HaltReason.code : HaltReason → Nat
  | .pcOutOfRange _ => 0
  | .unknownOpcode _ => 1
  | .stackOverflow => 2
  | .stackUnderflow => 3
  | .memoryOutOfRange _ => 4
  | .fetchOutOfRange _ => 5
  | .drawOutOfBounds _ _ => 6
  | .keyIndexOutOfRange _ => 7

/-- Normal termination is PcOutOfRange; every other reason is a failure (60_exceptions.md R148). -/
def HaltReason.isFailure : HaltReason → Bool
  | .pcOutOfRange _ => false
  | .unknownOpcode _ | .stackOverflow | .stackUnderflow | .memoryOutOfRange _ => true
  | .fetchOutOfRange _ | .drawOutOfBounds _ _ | .keyIndexOutOfRange _ => true

/-! ## Call stack (10_state.md R34, R35) -/

/-- Push(a): StackOverflow when 16 slots are occupied. -/
def State.push (a : Word) (s : State) : Except HaltReason State :=
  if h : s.sp.val < 16 then
    .ok { s with stack := s.stack.set s.sp.val a h, sp := ⟨s.sp.val + 1, by omega⟩ }
  else .error .stackOverflow

/-- Pop(): the top slot's address, and the state with one slot fewer occupied; StackUnderflow when none is. The slot
keeps its value (R36). -/
def State.pop (s : State) : Except HaltReason (Word × State) :=
  if 0 < s.sp.val then
    .ok (s.stack[s.sp.val - 1]'(by omega), { s with sp := ⟨s.sp.val - 1, by omega⟩ })
  else .error .stackUnderflow

/-! ## Memory accesses -/

/-- The check of one byte access (20_memory.md R55, D6): address a does not exist if it is 4096 or more. -/
def byteAccessHalt (a : Nat) : Option HaltReason :=
  if a ≥ Config.memSize then some (.memoryOutOfRange a) else none

/-- The check an instruction makes of all the addresses base, …, base + n - 1 before it writes anything (R55,
60_exceptions.md R134): the halt reports the lowest address that is 4096 or more (42_index_memory.md R117). Addresses are
naturals and do not wrap. -/
def accessHalt (base n : Nat) : Option HaltReason :=
  (List.range n).findSome? fun k => byteAccessHalt (base + k)

/-- The bytes at base, …, base + n - 1, lowest address first. -/
def State.loadBytes (base n : Nat) (s : State) : List Byte :=
  (List.range n).map fun k => s.mem.read (base + k)

/-- Fetch(): (mem[a] << 8) | mem[a + 1], big-endian (20_memory.md R57, R59). -/
def Memory.opcodeAt (m : Memory) (a : Nat) : Word := opcodeOfBytes (m.read a) (m.read (a + 1))

/-- FetchChecked() (20_memory.md R59, R60): the big-endian word at PC, or the halt of a PC outside the memory; PC itself
is not changed. -/
def State.fetch (s : State) : Except HaltReason Word :=
  if s.pc.toNat ≥ Config.memSize then .error (.pcOutOfRange s.pc)
  else if s.pc.toNat = Config.memSize - 1 then .error (.fetchOutOfRange s.pc)
  else .ok (s.mem.opcodeAt s.pc.toNat)

end Sys2Proof.Machine
end

