-- ==== Sys2Proof/Machine/Operands.lean ====
section
/-!
DEFINITION. The operand forms beyond a register and an immediate: the tick's inputs, the shift source, the sprite and the
register block.
-/

namespace Sys2Proof.Machine

/-! ## Inputs of the tick (60_exceptions.md R145) -/

/-- keys: the key sample of this tick, the same throughout the step (10_state.md R39). With no queued input it is the
tick's free value (log 9). -/
def State.keys (s : State) : BitVec 16 :=
  match s.inputs with
  | [] => Config.freeKeys s.ticks
  | t :: _ => t.keys

/-- RandomByte(): the random byte of this tick (41_alu.md R108). With no queued input it is the tick's free value (log 9). -/
def State.randomByte (s : State) : Byte :=
  match s.inputs with
  | [] => Config.freeRandom s.ticks
  | t :: _ => t.rnd

/-- The first pressed key, scanning in index order 0 to 15 (44_keys_timers.md R127). -/
def firstPressed (keys : BitVec 16) : Option RegIdx :=
  (List.finRange 16).find? fun k => keys.getLsbD k.val

/-! ## Register operands -/

/-- s of 8xy6 and 8xyE: V[x], or V[y] under SHIFT_SOURCE = VY (41_alu.md R104, R106). -/
def State.shiftOperand (x y : RegIdx) (s : State) : Byte :=
  match s.params.shiftSource with
  | .vx => s.reg x
  | .vy => s.reg y

/-- V0, …, Vx, the bytes that Fx55 stores, in order (42_index_memory.md R114). -/
def State.registerBlock (x : RegIdx) (s : State) : List Byte := s.v.toList.take (x.val + 1)

/-- The registers after Fx65: V0, …, Vx from mem[base], mem[base + 1], …, the others kept (42_index_memory.md R115). -/
def State.loadedRegisters (x : RegIdx) (base : Nat) (s : State) : Vector Byte 16 :=
  Vector.ofFn fun k : Fin 16 => if k.val ≤ x.val then s.mem.read (base + k.val) else s.v[k]

/-- The three decimal digits of a byte: hundreds, tens, units (42_index_memory.md R113). -/
def decimalDigits (v : Byte) : List Byte :=
  [BitVec.ofNat 8 (v.toNat / 100), BitVec.ofNat 8 (v.toNat / 10 % 10), BitVec.ofNat 8 (v.toNat % 10)]

/-! ## Sprite targets (43_draw.md R118, R120, R121) -/

/-- A target pixel: (column, row), not yet brought into the grid. -/
abbrev Target := Nat × Nat

/-- The targets of one sprite row: bit 7 is column x0 and bit 0 is column x0 + 7 (R118, D11; log 15). -/
def rowTargets (x0 py : Nat) (row : Byte) : List Target :=
  (List.range 8).filterMap fun c => if row.getLsbD (7 - c) then some (x0 + c, py) else none

/-- T: the targets of a sprite, in row-major order. -/
def spriteTargets (x0 : Nat) : Nat → List Byte → List Target
  | _, [] => []
  | py, row :: rows => rowTargets x0 py row ++ spriteTargets x0 (py + 1) rows

/-- A target is out of bounds when its column is 64 or more or its row is 32 or more (R120). -/
def Target.outOfBounds (t : Target) : Bool := decide (t.1 ≥ Config.screenWidth ∨ t.2 ≥ Config.screenHeight)

/-- What DRAW_EDGE_MODE makes of the targets (R120): a halt at the first one outside, the targets moved into the grid, or
those outside dropped. -/
def edgeTargets (m : Config.DrawEdgeMode) (ts : List Target) : Except HaltReason (List Target) :=
  match m with
  | .fault =>
    match ts.find? Target.outOfBounds with
    | some t => .error (.drawOutOfBounds t.1 t.2)
    | none => .ok ts
  | .wrap => .ok (ts.map fun t => (t.1 % Config.screenWidth, t.2 % Config.screenHeight))
  | .clip => .ok (ts.filter fun t => !t.outOfBounds)

end Sys2Proof.Machine
end

