-- ==== Sys2Proof/Machine/Flags.lean ====
section
/-!
DEFINITION. Every flag computation: carry, not-borrow, the bit shifted out, the collision, and the write-back of a result
with its flag (41_alu.md R94, R95; 43_draw.md R119). Flags are computed from the operands as they stood before the step.
-/

namespace Sys2Proof.Machine

/-- A flag as VF holds it: 1 or 0. -/
def flagByte (f : Bool) : Byte := if f then 1 else 0

/-- The carry of a + b: 1 if the sum is above 255 (41_alu.md R102). -/
def carryFlag (a b : Byte) : Bool := decide (a.toNat + b.toNat > 255)

/-- The not-borrow of a - b: 0 if b > a, else 1 (41_alu.md R103; R105 uses it with the operands exchanged). -/
def notBorrowFlag (a b : Byte) : Bool := !decide (b.toNat > a.toNat)

/-- The bit shifted out to the right: bit 0 of the operand (41_alu.md R104). -/
def shiftedOutRight (s : Byte) : Bool := s.getLsbD 0

/-- The bit shifted out to the left: bit 7 of the operand (41_alu.md R106). -/
def shiftedOutLeft (s : Byte) : Bool := s.getLsbD 7

/-- One target of a draw: a pixel that is set collides, and the pixel is inverted (43_draw.md R119, R121). -/
def plotTarget (acc : Framebuffer × Bool) (t : Target) : Framebuffer × Bool :=
  (acc.1.toggle t.1 t.2, acc.2 || acc.1.pixel t.1 t.2)

/-- The framebuffer after the targets are drawn in order, and whether any of them collided. -/
def plot (fb : Framebuffer) (ts : List Target) : Framebuffer × Bool := ts.foldl plotTarget (fb, false)

/-- WriteBack(x, r, f) (41_alu.md R95): the two orders differ only for x = F. -/
def State.writeBack (x : RegIdx) (r : Byte) (f : Bool) (s : State) : State :=
  match s.params.vfWriteOrder with
  | .flagLast => (s.setReg x r).setReg vf (flagByte f)
  | .resultLast => (s.setReg vf (flagByte f)).setReg x r

end Sys2Proof.Machine
end

