-- ==== Sys2Proof/Machine/Alu.lean ====
section
/-!
DEFINITION. The meanings of families 6, 7, 8 and C (41_alu.md). Results are computed exactly on naturals and narrowed
modulo 256 (R93); every operand is read before anything is written (R94).
-/

namespace Sys2Proof.Machine

/-! ## Results -/

/-- (a + b) mod 256 (R97, R102). -/
def sumByte (a b : Byte) : Byte := BitVec.ofNat 8 (a.toNat + b.toNat)

/-- (a - b) mod 256, computed as (a + 256 - b) mod 256 (R103). -/
def differenceByte (a b : Byte) : Byte := BitVec.ofNat 8 (a.toNat + 256 - b.toNat)

/-- s >> 1 (R104). -/
def shiftRightByte (s : Byte) : Byte := BitVec.ofNat 8 (s.toNat / 2)

/-- (s << 1) mod 256 (R106). -/
def shiftLeftByte (s : Byte) : Byte := BitVec.ofNat 8 (s.toNat * 2)

/-! ## Immediates and the random byte -/

/-- 6xkk LD Vx, byte (R96). -/
def execLdByte (x : RegIdx) (kk : Byte) (s : State) : Result := .next (s.setReg x kk).advance

/-- 7xkk ADD Vx, byte (R97): no flag. -/
def execAddByte (x : RegIdx) (kk : Byte) (s : State) : Result := .next (s.setReg x (sumByte (s.reg x) kk)).advance

/-- Cxkk RND Vx, byte (R107). -/
def execRnd (x : RegIdx) (kk : Byte) (s : State) : Result := .next (s.setReg x (s.randomByte &&& kk)).advance

/-! ## Register operations without a flag -/

/-- 8xy0 LD Vx, Vy (R98). -/
def execLdReg (x y : RegIdx) (s : State) : Result := .next (s.setReg x (s.reg y)).advance

/-- 8xy1 OR Vx, Vy (R99): VF is unchanged unless x = F. -/
def execOrReg (x y : RegIdx) (s : State) : Result := .next (s.setReg x (s.reg x ||| s.reg y)).advance

/-- 8xy2 AND Vx, Vy (R100). -/
def execAndReg (x y : RegIdx) (s : State) : Result := .next (s.setReg x (s.reg x &&& s.reg y)).advance

/-- 8xy3 XOR Vx, Vy (R101). -/
def execXorReg (x y : RegIdx) (s : State) : Result := .next (s.setReg x (s.reg x ^^^ s.reg y)).advance

/-! ## Register operations with a flag -/

/-- 8xy4 ADD Vx, Vy (R102). -/
def execAddReg (x y : RegIdx) (s : State) : Result :=
  .next (s.writeBack x (sumByte (s.reg x) (s.reg y)) (carryFlag (s.reg x) (s.reg y))).advance

/-- 8xy5 SUB Vx, Vy (R103). -/
def execSubReg (x y : RegIdx) (s : State) : Result :=
  .next (s.writeBack x (differenceByte (s.reg x) (s.reg y)) (notBorrowFlag (s.reg x) (s.reg y))).advance

/-- 8xy7 SUBN Vx, Vy (R105), the mirror of SUB. -/
def execSubnReg (x y : RegIdx) (s : State) : Result :=
  .next (s.writeBack x (differenceByte (s.reg y) (s.reg x)) (notBorrowFlag (s.reg y) (s.reg x))).advance

/-- 8xy6 SHR Vx, Vy (R104). -/
def execShrReg (x y : RegIdx) (s : State) : Result :=
  .next (s.writeBack x (shiftRightByte (s.shiftOperand x y)) (shiftedOutRight (s.shiftOperand x y))).advance

/-- 8xyE SHL Vx, Vy (R106). -/
def execShlReg (x y : RegIdx) (s : State) : Result :=
  .next (s.writeBack x (shiftLeftByte (s.shiftOperand x y)) (shiftedOutLeft (s.shiftOperand x y))).advance

end Sys2Proof.Machine
end

