-- ==== Sys2Proof/Machine/Control.lean ====
section
/-!
DEFINITION. The meanings of families 0, 1, 2, 3, 4, 5, 9 and B (40_control.md): screen clear, jumps, call and return, and
the skips that test registers. No instruction has a delay slot (R81), and no target is checked when it is written (R83).
-/

namespace Sys2Proof.Machine

/-- 00E0 CLS (R84). -/
def execCls (s : State) : Result :=
  .next ((s.setFramebuffer Framebuffer.blank).emit .displayClear).advance

/-- 00EE RET (R85): PC is the popped address plus 2. -/
def execRet (s : State) : Result :=
  match s.pop with
  | .error h => halt h s
  | .ok (a, t) => .next (t.setPc (a + 2))

/-- 1nnn JP addr (R86). -/
def execJp (nnn : Addr12) (s : State) : Result := .next (s.setPc (zext16 nnn))

/-- 2nnn CALL addr (R87): the pushed address is the CALL's own. -/
def execCall (nnn : Addr12) (s : State) : Result :=
  match s.push s.pc with
  | .error h => halt h s
  | .ok t => .next (t.setPc (zext16 nnn))

/-- Bnnn JP V0, addr (R88). -/
def execJpV0 (nnn : Addr12) (s : State) : Result :=
  .next (s.setPc (zext16 nnn + (s.reg 0).setWidth 16))

/-- 3xkk SE Vx, byte (R89). -/
def execSeByte (x : RegIdx) (kk : Byte) (s : State) : Result := .next (s.skipIf (decide (s.reg x = kk)))

/-- 4xkk SNE Vx, byte (R90). -/
def execSneByte (x : RegIdx) (kk : Byte) (s : State) : Result := .next (s.skipIf (decide (s.reg x ≠ kk)))

/-- 5xy0 SE Vx, Vy (R91). -/
def execSeReg (x y : RegIdx) (s : State) : Result := .next (s.skipIf (decide (s.reg x = s.reg y)))

/-- 9xy0 SNE Vx, Vy (R92). -/
def execSneReg (x y : RegIdx) (s : State) : Result := .next (s.skipIf (decide (s.reg x ≠ s.reg y)))

end Sys2Proof.Machine
end

