-- ==== Sys2Proof/Machine/Draw.lean ====
section
/-!
DEFINITION. The meaning of Dxyn, the only drawing instruction (43_draw.md).
-/

namespace Sys2Proof.Machine

/-- The end of a draw whose targets are all in the grid: the pixels are inverted, VF is the collision, the display is
given the new frame, and PC moves on (R121). -/
def State.drawTargets (ts : List Target) (s : State) : State :=
  (((s.setFramebuffer (plot s.fb ts).1).setReg vf (flagByte (plot s.fb ts).2)).emit
    (.displayDraw (plot s.fb ts).1)).advance

/-- Dxyn DRW Vx, Vy, nibble (R121): the memory range is checked first, then the edges (60_exceptions.md R135), and the
coordinates are read before VF is written (R122, D10). -/
def execDrw (x y : RegIdx) (n : Nat) (s : State) : Result :=
  match accessHalt s.i.toNat n with
  | some h => halt h s
  | none =>
    match edgeTargets s.params.drawEdgeMode
        (spriteTargets (s.reg x).toNat (s.reg y).toNat (s.loadBytes s.i.toNat n)) with
    | .error h => halt h s
    | .ok ts => .next (s.drawTargets ts)

end Sys2Proof.Machine
end

