-- ==== Sys2Proof/Machine/Index.lean ====
section
/-!
DEFINITION. The meanings of Annn, Fx1E, Fx29, Fx33, Fx55 and Fx65 (42_index_memory.md). The only addressing mode is I plus
a constant offset, on naturals; the whole range is checked before anything is written (60_exceptions.md R134).
-/

namespace Sys2Proof.Machine

/-- What Fx55 and Fx65 leave in I (R116): I, or (I + x + 1) mod 65536 under I_AFTER_BLOCK = INCREMENT. -/
def State.indexAfterBlock (x : RegIdx) (s : State) : Word :=
  match s.params.iAfterBlock with
  | .unchanged => s.i
  | .increment => BitVec.ofNat 16 (s.i.toNat + x.val + 1)

/-- Annn LD I, addr (R110). -/
def execLdI (nnn : Addr12) (s : State) : Result := .next (s.setIndex (zext16 nnn)).advance

/-- Fx1E ADD I, Vx (R111): modulo 65536, no flag, no halt (D16). -/
def execAddI (x : RegIdx) (s : State) : Result :=
  .next (s.setIndex (BitVec.ofNat 16 (s.i.toNat + (s.reg x).toNat))).advance

/-- Fx29 LD F, Vx (R112): V[x] × 5 for every V[x] (D17). -/
def execLdF (x : RegIdx) (s : State) : Result :=
  .next (s.setIndex (BitVec.ofNat 16 ((s.reg x).toNat * 5))).advance

/-- Fx33 LD B, Vx (R113). -/
def execLdB (x : RegIdx) (s : State) : Result :=
  match accessHalt s.i.toNat 3 with
  | some h => halt h s
  | none => .next (s.storeBytes s.i.toNat (decimalDigits (s.reg x))).advance

/-- Fx55 LD [I], Vx (R114). -/
def execStoreRegs (x : RegIdx) (s : State) : Result :=
  match accessHalt s.i.toNat (x.val + 1) with
  | some h => halt h s
  | none => .next ((s.storeBytes s.i.toNat (s.registerBlock x)).setIndex (s.indexAfterBlock x)).advance

/-- Fx65 LD Vx, [I] (R115). -/
def execLoadRegs (x : RegIdx) (s : State) : Result :=
  match accessHalt s.i.toNat (x.val + 1) with
  | some h => halt h s
  | none => .next ((s.setRegs (s.loadedRegisters x s.i.toNat)).setIndex (s.indexAfterBlock x)).advance

end Sys2Proof.Machine
end

