-- ==== Sys2Proof/Machine/KeysTimers.lean ====
section
/-!
DEFINITION. The meanings of Ex9E, ExA1, Fx07, Fx0A, Fx15 and Fx18 (44_keys_timers.md).
-/

namespace Sys2Proof.Machine

/-- Ex9E SKP Vx (R125): a key index above 15 halts (R124, D18). -/
def execSkp (x : RegIdx) (s : State) : Result :=
  if (s.reg x).toNat > 15 then halt (.keyIndexOutOfRange (s.reg x)) s
  else .next (s.skipIf (s.keys.getLsbD (s.reg x).toNat))

/-- ExA1 SKNP Vx (R126): a key index above 15 halts (R124, D18). -/
def execSknp (x : RegIdx) (s : State) : Result :=
  if (s.reg x).toNat > 15 then halt (.keyIndexOutOfRange (s.reg x)) s
  else .next (s.skipIf (!s.keys.getLsbD (s.reg x).toNat))

/-- A key as a byte, as LD Vx, K writes it. -/
def keyByte (k : RegIdx) : Byte := BitVec.ofNat 8 k.val

/-- Fx0A LD Vx, K (R127): with a key pressed, its index goes to V[x] and PC moves on; with none, nothing changes, PC
included, and the instruction runs again at the next tick. -/
def execLdVxK (x : RegIdx) (s : State) : Result :=
  .next { s with
    v := (firstPressed s.keys).elim s.v fun k => s.v.set x (keyByte k)
    pc := (firstPressed s.keys).elim s.pc fun _ => s.pc + 2 }

/-- Fx07 LD Vx, DT (R128): DT before this tick's decrement. -/
def execLdVxDt (x : RegIdx) (s : State) : Result := .next (s.setReg x s.dt).advance

/-- Fx15 LD DT, Vx (R129). -/
def execLdDtVx (x : RegIdx) (s : State) : Result := .next (s.setDelay (s.reg x)).advance

/-- Fx18 LD ST, Vx (R130): no audio event of its own. -/
def execLdStVx (x : RegIdx) (s : State) : Result := .next (s.setSound (s.reg x)).advance

end Sys2Proof.Machine
end

