-- ==== Sys2Proof/Machine/Tick.lean ====
section
/-!
DEFINITION. What a tick adds around the instruction (60_exceptions.md R141): an empty output list at its start, fetch and
decode, the timer update after a step that did not halt, and the next tick's input moved up. Step.lean only puts these
together.
-/

namespace Sys2Proof.Machine

/-- The start of a tick: E <- [ ] (R141). -/
def State.beginTick (s : State) : State := { s with events := [] }

/-- One timer after one update: one less while above 0, never negative (R142). -/
def countDown (t : Byte) : Byte := if t = 0 then 0 else t - 1

/-- The audio event of one timer update, by ST before it (R142, D24): none at 0, Audio.Stop when it reaches 0, else
Audio.Start. -/
def audioEvents (st : Byte) : List Event :=
  if st = 0 then [] else if countDown st = 0 then [.audioStop] else [.audioStart]

/-- TimerTick (R142). -/
def State.timerTick (s : State) : State :=
  { s with dt := countDown s.dt, st := countDown s.st, events := s.events ++ audioEvents s.st }

/-- The tick's input is used up, and the next tick has the next number (log 9). -/
def State.nextInput (s : State) : State := { s with inputs := s.inputs.tail, ticks := s.ticks + 1 }

/-- The end of a tick: the timer update, unless the step halted (R141, R143). -/
def State.endTick (s : State) : State :=
  match s.run with
  | .running => s.timerTick.nextInput
  | .halted _ => s

/-- The end of a tick, as what the step answers. -/
def finishTick (r : Result) : Result :=
  match r with
  | .next s => .next s.endTick
  | .fault f => .fault f
  | .refused q => .refused q

/-- Fetch and decode (R131): the instruction at PC, or the halt of R60 or R75, in R135's order. -/
def State.fetchInstr (s : State) : Except HaltReason Instr :=
  match s.fetch with
  | .error h => .error h
  | .ok op =>
    match decode s.params.zeroFamilyDecode op with
    | .error _ => .error (.unknownOpcode op)
    | .ok i => .ok i

/-- The program bytes of one opcode placed where the next fetch reads, most significant byte first (20_memory.md R57),
with the block marked as loaded (R67). -/
def State.placeWord (w : Word) (s : State) : State :=
  { s with
    mem := s.mem.writeBytes s.pc.toNat [w.extractLsb' 8 8, w.extractLsb' 0 8]
    loaded := true }

end Sys2Proof.Machine
end

