-- ==== Sys2Proof/Machine/Step.lean ====
section
/-!
DEFINITION. One step of the machine is one tick of the block (60_exceptions.md R131, R141): fetch, decode, execute, then
the timer update.
-/

namespace Sys2Proof.Machine

/-- Tick(s, keys, rnd) (R141). It requires a RUNNING, loaded block: a HALTED one has no transition (10_state.md R40), and
a tick before a load is refused (20_memory.md R68). A halt in fetch, decode or execute is the next state (log 11). -/
def step (s : State) : Host.Outcome State Fault Refusal :=
  match s.run with
  | .halted h => .fault (.blockHalted h)
  | .running =>
    match s.loaded with
    | false => .refused .noProgramLoaded
    | true =>
      match s.beginTick.fetchInstr with
      | .error h => halt h s.beginTick
      | .ok i => finishTick (exec i s.beginTick)

/-- s with the instruction of nbits bits, numbered as the opcode table numbers it, where step fetches next; it stands for
the host's load (log 6). -/
def State.withFetchWord (s : State) (nbits w : Nat) : State := s.placeWord (BitVec.ofNat 16 (w % 2 ^ nbits))

end Sys2Proof.Machine
end

