-- ==== Sys2Proof/Machine/Launch.lean ====
section
/-!
DEFINITION. Construction with the launch parameters, and the program load (20_memory.md R66, R67, R68;
70_reset_and_hazards.md R153). These are the host's transitions, not steps of the block.
-/

namespace Sys2Proof.Machine

/-- The launch parameters (00_scope.md R17) and what else construction leaves open (10_state.md R46 to R50): a claim about
a program holds for every value of them. -/
structure Launch where
  /-- INIT_V. -/
  initV : Vector Byte 16
  /-- INIT_I. -/
  initI : Word
  /-- INIT_FB. -/
  initFb : Framebuffer
  /-- INIT_MEM, from address 0 up; the part under the font is overwritten, and what the list is short of reads 0. -/
  initMem : List Byte
  /-- FONT, 80 bytes. -/
  font : Vector Byte 80
  /-- The stack slots, unspecified and unobservable (R46). -/
  initStack : Vector Word 16
  /-- The behaviour parameters. -/
  params : Config.Params
  deriving DecidableEq, Repr

/-- The launch that State.reset stands for (logs 1 to 5, 7 and 8). -/
def Launch.default : Launch where
  initV := Vector.replicate 16 0
  initI := 0
  initFb := Framebuffer.blank
  initMem := []
  font := Vector.ofFn fun k : Fin 80 => defaultFont.getD k.val 0
  initStack := Vector.replicate 16 0
  params := Config.defaultParams

/-- Construct (R153, R66): the font over the initial memory, and every other field at its reset value. -/
def State.construct (l : Launch) : State :=
  { State.reset with
    mem := (Memory.writeBytes [] 0 (l.initMem.take Config.memSize)).writeBytes 0 l.font.toList
    v := l.initV
    i := l.initI
    fb := l.initFb
    stack := l.initStack
    params := l.params }

/-- What a load answers. -/
inductive LoadResult where
  /-- The program is in memory. -/
  | accepted (s : State)
  /-- LoadRejected(ProgramTooLarge, len): no state changes and the block does not run (R67). -/
  | rejected (len : Nat)
  /-- No transition: a second load, or a load after the first tick (R68, D28). -/
  | refused (r : Refusal)
  deriving DecidableEq, Repr

/-- LoadProgram(bytes) (R67). A block that has ticked has been loaded, so `loaded` also stands for "after the first
tick". -/
def State.loadProgram (bytes : List Byte) (s : State) : LoadResult :=
  if s.loaded then .refused .programAlreadyLoaded
  else if bytes.length > Config.maxProgram then .rejected bytes.length
  else .accepted { s with mem := s.mem.writeBytes Config.loadBase bytes, loaded := true }

end Sys2Proof.Machine
end

