-- ==== Sys2Proof/Safety.lean ====
section
/-!
DEFINITION. What the claims are stated in: the invariant of the machine, which parts of the state a step leaves alone, and
the spec's own tables of who may change what.
-/

namespace Sys2Proof.Machine

/-! ## The invariant -/

/-- Memory is in its canonical form. -/
abbrev State.MemoryWf (s : State) : Prop := s.mem.wf = true

/-- Every occupied stack slot holds the address of a CALL that was fetched: at most 0xFFE (10_state.md R31). -/
abbrev State.ReturnAddressesFetched (s : State) : Prop :=
  ∀ j : Fin 16, j.val < s.sp.val → s.stack[j].toNat ≤ 0xFFE

/-- PC is at most the largest value an instruction can write, 0x10FE (10_state.md R31). -/
abbrev State.PcBounded (s : State) : Prop := s.pc.toNat ≤ 0x10FE

/-- The invariant of the machine. -/
structure State.Inv (s : State) : Prop where
  memoryWf : s.MemoryWf
  returnAddresses : s.ReturnAddressesFetched
  pcBounded : s.PcBounded

/-- The block can take a tick: it is RUNNING and a program is loaded (60_exceptions.md R131). -/
abbrev State.Ready (s : State) : Prop := s.run = .running ∧ s.loaded = true

/-- The fetch is in range and the word at PC decodes to i (20_memory.md R60, 30_encoding.md R74). -/
abbrev State.NextInstr (s : State) (i : Instr) : Prop :=
  s.pc.toNat < 4095 ∧ decode s.params.zeroFamilyDecode (s.mem.opcodeAt s.pc.toNat) = .ok i

/-! ## Frames -/

/-- Every byte of memory reads as before. -/
abbrev State.SameMemory (s t : State) : Prop := ∀ a : Nat, t.mem.read a = s.mem.read a

/-- Every byte of memory outside base, …, base + n - 1 reads as before. -/
abbrev State.SameMemoryOutside (s t : State) (base n : Nat) : Prop :=
  ∀ a : Nat, (a < base ∨ base + n ≤ a) → t.mem.read a = s.mem.read a

/-- Only PC may differ: every register, flag, timer, slot, pixel and event is as before, and every byte reads as before. -/
abbrev State.OnlyPc (s t : State) : Prop := t = { s with pc := t.pc } ∧ s.SameMemory t

/-- Only PC and the general registers may differ. -/
abbrev State.OnlyPcRegs (s t : State) : Prop := t = { s with pc := t.pc, v := t.v } ∧ s.SameMemory t

/-- Only PC and I may differ. -/
abbrev State.OnlyPcIndex (s t : State) : Prop := t = { s with pc := t.pc, i := t.i } ∧ s.SameMemory t

/-- Only PC and V[x] may differ, and V[x] becomes b: one register is written and PC moves to the next instruction. -/
abbrev State.WroteReg (s t : State) (x : RegIdx) (b : Byte) : Prop :=
  s.OnlyPcRegs t ∧ t.pc = s.pc + 2 ∧ t.reg x = b ∧ ∀ z : RegIdx, z ≠ x → t.reg z = s.reg z

/-- The registers after an ALU instruction with result r and flag f (41_alu.md R95): V[x] is the result and VF the flag;
for x = F, VF is the flag under FLAG_LAST and the result under RESULT_LAST. Only PC and these registers differ. -/
abbrev State.WroteBack (s t : State) (x : RegIdx) (r f : Nat) : Prop :=
  s.OnlyPcRegs t ∧ t.pc = s.pc + 2 ∧ (∀ z : RegIdx, z ≠ x → z ≠ vf → t.reg z = s.reg z) ∧
  (x ≠ vf → (t.reg x).toNat = r ∧ (t.reg vf).toNat = f) ∧
  (x = vf → (t.reg vf).toNat = if s.params.vfWriteOrder = .flagLast then f else r)

/-- A halt was taken and nothing else happened (60_exceptions.md R134). -/
abbrev State.OnlyHalted (s t : State) (h : HaltReason) : Prop :=
  t = { s with run := .halted h, events := s.events ++ [.halted h] } ∧ s.SameMemory t

/-! ## The spec's tables -/

/-- The values PC may take from an instruction that does not halt, as naturals (10_state.md R29). -/
def pcChoices (i : Instr) (s : State) : List Nat :=
  match i with
  | .jp nnn | .call nnn => [nnn.toNat]
  | .jpV0 nnn => [nnn.toNat + (s.reg 0).toNat]
  | .ret => if h : 0 < s.sp.val then [(s.stack[s.sp.val - 1]'(by omega)).toNat + 2] else []
  | .seByte _ _ | .sneByte _ _ | .seReg _ _ | .sneReg _ _ | .skp _ | .sknp _ => [s.pc.toNat + 2, s.pc.toNat + 4]
  | .ldVxK _ => [s.pc.toNat, s.pc.toNat + 2]
  | .cls | .ldByte _ _ | .addByte _ _ | .ldReg _ _ | .orReg _ _ | .andReg _ _ | .xorReg _ _ => [s.pc.toNat + 2]
  | .addReg _ _ | .subReg _ _ | .shrReg _ _ | .subnReg _ _ | .shlReg _ _ | .rnd _ _ => [s.pc.toNat + 2]
  | .ldI _ | .drw _ _ _ | .ldVxDt _ | .ldDtVx _ | .ldStVx _ | .addI _ | .ldF _ => [s.pc.toNat + 2]
  | .ldB _ | .storeRegs _ | .loadRegs _ => [s.pc.toNat + 2]

/-- Which general registers an instruction may write: its x field (10_state.md R22), V0 to Vx for Fx65, and VF for the
flag writers (R24). -/
def mayWriteReg (i : Instr) (z : RegIdx) : Bool :=
  match i with
  | .ldByte x _ | .addByte x _ | .rnd x _ | .ldVxDt x | .ldVxK x => z == x
  | .ldReg x _ | .orReg x _ | .andReg x _ | .xorReg x _ => z == x
  | .addReg x _ | .subReg x _ | .shrReg x _ | .subnReg x _ | .shlReg x _ => z == x || z == vf
  | .drw _ _ _ => z == vf
  | .loadRegs x => decide (z.val ≤ x.val)
  | .cls | .ret | .jp _ | .call _ | .jpV0 _ | .ldI _ => false
  | .seByte _ _ | .sneByte _ _ | .seReg _ _ | .sneReg _ _ | .skp _ | .sknp _ => false
  | .ldDtVx _ | .ldStVx _ | .addI _ | .ldF _ | .ldB _ | .storeRegs _ => false

/-- The instructions that read the key sample: Ex9E, ExA1 and Fx0A (10_state.md R39). -/
def readsKeys : Instr → Bool
  | .skp _ | .sknp _ | .ldVxK _ => true
  | _ => false

/-- The instruction that reads the random byte: Cxkk (41_alu.md R107). -/
def readsRandom : Instr → Bool
  | .rnd _ _ => true
  | _ => false

/-- DT after the step and before the timer update: Fx15 writes it (10_state.md R37). -/
def delayAfterStep (i : Instr) (s : State) : Byte :=
  match i with
  | .ldDtVx x => s.reg x
  | _ => s.dt

/-- ST after the step and before the timer update: Fx18 writes it (10_state.md R37). -/
def soundAfterStep (i : Instr) (s : State) : Byte :=
  match i with
  | .ldStVx x => s.reg x
  | _ => s.st

/-- The display events of an instruction that does not halt, given the framebuffer it leaves (60_exceptions.md R146). -/
def displayEvents (i : Instr) (after : Framebuffer) : List Event :=
  match i with
  | .cls => [.displayClear]
  | .drw _ _ _ => [.displayDraw after]
  | _ => []

/-- The operand of a shift, as a natural (41_alu.md R104, R106). -/
def shiftedValue (x y : RegIdx) (s : State) : Nat :=
  if s.params.shiftSource = .vx then (s.reg x).toNat else (s.reg y).toNat

/-! ## Sprites -/

/-- Bit 7 - c of the sprite's row r, read from memory at I + r: column c of the row (43_draw.md R118). -/
abbrev State.SpriteBit (s : State) (r c : Nat) : Prop := (s.mem.read (s.i.toNat + r)).getLsbD (7 - c) = true

/-- A set bit of the n-row sprite at (V[x], V[y]) lands on pixel (px, py): moved into the grid under WRAP, as it stands
otherwise (43_draw.md R120, R121). -/
def State.SpriteCovers (s : State) (x y : RegIdx) (n px py : Nat) : Prop :=
  ∃ r c : Nat, r < n ∧ c < 8 ∧ s.SpriteBit r c ∧
    (if s.params.drawEdgeMode = .wrap
     then ((s.reg x).toNat + c) % 64 = px ∧ ((s.reg y).toNat + r) % 32 = py
     else (s.reg x).toNat + c = px ∧ (s.reg y).toNat + r = py)

/-- Every set bit of the n-row sprite at (V[x], V[y]) lies inside the 64 × 32 grid as it stands. -/
def State.SpriteInside (s : State) (x y : RegIdx) (n : Nat) : Prop :=
  ∀ r c : Nat, r < n → c < 8 → s.SpriteBit r c → (s.reg x).toNat + c < 64 ∧ (s.reg y).toNat + r < 32

end Sys2Proof.Machine
end

