-- ==== Sys2Proof/Certificates/Slice0/Obligations.lean ====
section
/-!
DEFINITION. The statements for the provers. Each docstring names the rules of spec/ it formalises; where a clause rests on
a decision of the spec's own (D<n> of 92_eei_decisions.md) or on a choice of the model's (log <n>), it says so.
-/

open Sys2Proof Sys2Proof.Machine

/-! ## Encoding -/

/-- Decoding an encoded well-formed instruction gives it back, under either ZERO_FAMILY_DECODE (R72, R73, R74; the
canonical spelling of ignored bits is the spec's decision D26). -/
def Obligations.DecodeOfEncodeIsIdentity : Prop :=
  ∀ (z : Config.ZeroFamilyDecode) (i : Instr), i.WellFormed → decode z (encode i) = .ok i

/-- A word that decodes to i is well formed, matches i's row of the opcode table, and agrees with i's own word on every
bit that is read at all (R71, R72, R74, R78; opcode_table.json). -/
def Obligations.DecodedWordMatchesItsTableRow : Prop :=
  ∀ (z : Config.ZeroFamilyDecode) (op : Word) (i : Instr), decode z op = .ok i →
    i.WellFormed ∧ op &&& opcodeMask z i = opcodePattern z i ∧
    op &&& opcodeReadBits z i = encode i &&& opcodeReadBits z i

/-- A word that matches an instruction's row of the opcode table decodes to an instruction of that row: no other row takes
it (R72, R74; opcode_table.json). -/
def Obligations.TableRowWordDecodesToThatRow : Prop :=
  ∀ (z : Config.ZeroFamilyDecode) (op : Word) (i : Instr), op &&& opcodeMask z i = opcodePattern z i →
    ∃ j : Instr, decode z op = .ok j ∧ opcodeMask z j = opcodeMask z i ∧ opcodePattern z j = opcodePattern z i

/-- The unknown words are exactly those of R76's table, and each is rejected by its own name, with the word (R75). -/
def Obligations.UnknownWordsAreTheTableOfR76 : Prop :=
  ∀ (z : Config.ZeroFamilyDecode) (op : Word),
    (decode z op = .error (.unknownOpcode op) ↔
      (op.toNat / 4096 = 0x0 ∧ z = .lowNibble ∧ op.toNat % 16 ≠ 0x0 ∧ op.toNat % 16 ≠ 0xE) ∨
      (op.toNat / 4096 = 0x0 ∧ z = .exact ∧ op.toNat ≠ 0x00E0 ∧ op.toNat ≠ 0x00EE) ∨
      (op.toNat / 4096 = 0x8 ∧ op.toNat % 16 ∈ [0x8, 0x9, 0xA, 0xB, 0xC, 0xD, 0xF]) ∨
      (op.toNat / 4096 = 0xE ∧ op.toNat % 256 ∉ [0x9E, 0xA1]) ∨
      (op.toNat / 4096 = 0xF ∧ op.toNat % 256 ∉ [0x07, 0x0A, 0x15, 0x18, 0x1E, 0x29, 0x33, 0x55, 0x65])) ∧
    ((∃ e, decode z op = .error e) → decode z op = .error (.unknownOpcode op))

/-- Words written out from the encodings of R79 decode to the instructions they stand for. -/
def Obligations.WrittenOutWordsDecode : Prop :=
  decode .lowNibble 0x00E0 = .ok .cls ∧ decode .exact 0x00EE = .ok .ret ∧
  decode .lowNibble 0x2ABC = .ok (.call 0xABC) ∧ decode .lowNibble 0x352A = .ok (.seByte 5 0x2A) ∧
  decode .lowNibble 0x8127 = .ok (.subnReg 1 2) ∧ decode .lowNibble 0xD125 = .ok (.drw 1 2 5) ∧
  decode .lowNibble 0xE19E = .ok (.skp 1) ∧ decode .lowNibble 0xF355 = .ok (.storeRegs 3) ∧
  decode .lowNibble 0x5121 = .ok (.seReg 1 2) ∧ decode .lowNibble 0xE09F = .error (.unknownOpcode 0xE09F)

/-! ## Fetch and tick -/

/-- The fetch reads the byte at PC as bits 15..8 and the byte at PC + 1 as bits 7..0 (R59). -/
def Obligations.FetchReadsBigEndianWordAtPc : Prop :=
  ∀ s : State, s.pc.toNat < 4095 →
    ∃ op : Word, s.fetch = .ok op ∧
      op.toNat = (s.mem.read s.pc.toNat).toNat * 256 + (s.mem.read (s.pc.toNat + 1)).toNat

/-- A step runs the instruction that the bytes at PC decode to: it executes it with an empty output list; if that leaves
the block RUNNING, the timer update follows (each timer one down while above 0, and the audio event), and the tick's input
is used up (log 9); if it halts, nothing follows (R131, R141, R142; no timer update on a halting tick is decision D23, and
Audio.Start at every tick that leaves ST above 0 is decision D24). -/
def Obligations.StepRunsTheDecodedInstruction : Prop :=
  ∀ (s : State) (i : Instr), s.Ready → s.NextInstr i →
    step s = finishTick (exec i { s with events := [] }) ∧
    ∀ t : State, exec i { s with events := [] } = .next t →
      (t.run = .running →
        step s = .next { t with
          dt := if t.dt = 0 then 0 else t.dt - 1
          st := if t.st = 0 then 0 else t.st - 1
          events := t.events ++ (if t.st = 0 then [] else if t.st = 1 then [.audioStop] else [.audioStart])
          inputs := t.inputs.tail
          ticks := t.ticks + 1 }) ∧
      (t.run ≠ .running → step s = .next t)

/-- A fetch outside the memory halts before anything else: PcOutOfRange at 4096 or more, FetchOutOfRange at 4095 (R60,
whose second case is decision D5). Only the run state and the output list change (R134, decision D8). -/
def Obligations.FetchOutsideMemoryHalts : Prop :=
  ∀ s : State, s.Ready →
    (4096 ≤ s.pc.toNat →
      ∃ t, step s = .next t ∧ State.OnlyHalted { s with events := [] } t (.pcOutOfRange s.pc)) ∧
    (s.pc.toNat = 4095 →
      ∃ t, step s = .next t ∧ State.OnlyHalted { s with events := [] } t (.fetchOutOfRange s.pc))

/-- A word that does not decode halts the step with UnknownOpcode, carrying the word, and writes nothing else (R75). -/
def Obligations.UnknownOpcodeHaltsTheStep : Prop :=
  ∀ (s : State) (e : DecodeError), s.Ready → s.pc.toNat < 4095 →
    decode s.params.zeroFamilyDecode (s.mem.opcodeAt s.pc.toNat) = .error e →
    ∃ t, step s = .next t ∧
      State.OnlyHalted { s with events := [] } t (.unknownOpcode (s.mem.opcodeAt s.pc.toNat))

/-- A HALTED block takes no further step: the model's step stops there with a fault of its own name (R40; the fault is
log 11). -/
def Obligations.HaltedBlockTakesNoStep : Prop :=
  ∀ (s : State) (h : HaltReason), s.run = .halted h →
    step s = .fault (.blockHalted h) ∧ ∀ t, step s ≠ .next t

/-- A tick before a load and a second load are refused (R68, decision D28). -/
def Obligations.UnloadedTickAndSecondLoadAreRefused : Prop :=
  ∀ (s : State) (bytes : List Byte),
    (s.run = .running → s.loaded = false → step s = .refused .noProgramLoaded) ∧
    (s.loaded = true → s.loadProgram bytes = .refused .programAlreadyLoaded)

/-- A RUNNING, loaded block always takes a tick: no word, register or memory content stops the machine by a fault or a
refusal (R75, R132: every synchronous exception is a halt, which is a next state, log 11). -/
def Obligations.ReadyBlockAlwaysTicks : Prop :=
  ∀ s : State, s.Ready → ∃ t, step s = .next t

/-- Halts are precise: a tick that ends HALTED changed nothing but the run state and the output list, which holds the one
Halted event; no timer update ran (R134, R143: decisions D8 and D23). -/
def Obligations.HaltingTickWritesNothingElse : Prop :=
  ∀ s t : State, step s = .next t → t.run ≠ .running →
    ∃ h : HaltReason, t.run = .halted h ∧ State.OnlyHalted { s with events := [] } t h

/-- The timer update follows the step: each timer ends one below what the step left, and never below 0 (R142, R158). -/
def Obligations.TickCountsBothTimersDown : Prop :=
  ∀ (s t : State) (i : Instr), s.Ready → s.NextInstr i → step s = .next t → t.run = .running →
    t.dt.toNat = (delayAfterStep i s).toNat - 1 ∧ t.st.toNat = (soundAfterStep i s).toNat - 1

/-- The output list of a tick that does not halt: the display event of 00E0 or Dxyn, if it was one, then the audio event of
the timer update (R141, R146 with decision D27, R142 with decision D24). -/
def Obligations.TickEmitsDisplayThenAudio : Prop :=
  ∀ (s t : State) (i : Instr), s.Ready → s.NextInstr i → step s = .next t → t.run = .running →
    t.events = displayEvents i t.fb ++
      (if (soundAfterStep i s).toNat = 0 then []
       else if (soundAfterStep i s).toNat = 1 then [.audioStop] else [.audioStart])

/-- PC after a tick that does not halt is one of R29's values for the instruction, as a natural number: it never wraps
(R31), in every state of the invariant. -/
def Obligations.PcTakesTheValuesOfR29 : Prop :=
  ∀ (s t : State) (i : Instr), s.Inv → s.Ready → s.NextInstr i → step s = .next t → t.run = .running →
    t.pc.toNat ∈ pcChoices i s

/-! ## Invariants -/

/-- Reset, and construction with any launch parameters, give a state of the invariant. -/
def Obligations.InvariantHoldsAtReset : Prop :=
  State.reset.Inv ∧ ∀ l : Launch, (State.construct l).Inv

/-- Every step keeps the invariant: memory stays canonical, every occupied stack slot stays at most 0xFFE, and PC stays at
most 0x10FE (R31, and the model's memory form). -/
def Obligations.EveryStepKeepsTheInvariant : Prop :=
  ∀ s t : State, s.Inv → step s = .next t → t.Inv

/-- An accepted load keeps the invariant. -/
def Obligations.LoadKeepsTheInvariant : Prop :=
  ∀ (s t : State) (bytes : List Byte), s.Inv → s.loadProgram bytes = .accepted t → t.Inv

/-- Two canonical memories that read alike at every address are the same list (the model's memory form). -/
def Obligations.CanonicalMemoriesAreDeterminedByReads : Prop :=
  ∀ m m' : Memory, m.wf = true → m'.wf = true → (∀ a, m.read a = m'.read a) → m = m'

/-! ## Who may change what -/

/-- Only Fx33 and Fx55 write memory (R56). -/
def Obligations.OnlyTheStoresWriteMemory : Prop :=
  ∀ (i : Instr) (s t : State), (∀ x, i ≠ .ldB x) → (∀ x, i ≠ .storeRegs x) → exec i s = .next t →
    t.mem = s.mem ∧ s.SameMemory t

/-- An instruction writes no general register but those of R22 and R24: its x field, V0 to Vx for Fx65, and VF for the
flag writers. -/
def Obligations.OnlyNamedRegistersAreWritten : Prop :=
  ∀ (i : Instr) (s t : State) (z : RegIdx), exec i s = .next t → mayWriteReg i z = false → t.reg z = s.reg z

/-- The stack and SP change only by 2nnn and 00EE (R33); I only by Annn, Fx1E, Fx29 and, under INCREMENT, Fx55 and Fx65
(R27); DT only by Fx15 and ST only by Fx18 (R37); the framebuffer only by 00E0 and Dxyn (R38). -/
def Obligations.SpecialStateHasItsOwnWriters : Prop :=
  ∀ (i : Instr) (s t : State), exec i s = .next t →
    ((∀ nnn, i ≠ .call nnn) → i ≠ .ret → t.stack = s.stack ∧ t.sp = s.sp) ∧
    ((∀ nnn, i ≠ .ldI nnn) → (∀ x, i ≠ .addI x) → (∀ x, i ≠ .ldF x) →
      ((∀ x, i ≠ .storeRegs x ∧ i ≠ .loadRegs x) ∨ s.params.iAfterBlock = .unchanged) → t.i = s.i) ∧
    ((∀ x, i ≠ .ldDtVx x) → t.dt = s.dt) ∧
    ((∀ x, i ≠ .ldStVx x) → t.st = s.st) ∧
    (i ≠ .cls → (∀ x y n, i ≠ .drw x y n) → t.fb = s.fb)

/-- No step changes the behaviour parameters or the loaded mark, and a step that does not halt uses up exactly one queued
input and counts one tick (R41 for the inputs; the fields are the model's own, logs 7 and 9). -/
def Obligations.StepKeepsParametersAndUsesOneInput : Prop :=
  ∀ s t : State, step s = .next t →
    t.params = s.params ∧ t.loaded = s.loaded ∧
    (t.run = .running → t.inputs = s.inputs.tail ∧ t.ticks = s.ticks + 1)

/-- The key sample reaches only Ex9E, ExA1 and Fx0A, and the random byte only Cxkk (R39, R107): with other inputs that
agree on what the instruction reads, the same thing happens. -/
def Obligations.InputsReachOnlyTheirReaders : Prop :=
  ∀ (i : Instr) (s t : State) (ins : List TickInput) (k : Nat),
    (readsKeys i = true → State.keys { s with inputs := ins, ticks := k } = s.keys) →
    (readsRandom i = true → State.randomByte { s with inputs := ins, ticks := k } = s.randomByte) →
    exec i s = .next t →
    exec i { s with inputs := ins, ticks := k } = .next { t with inputs := ins, ticks := k }

/-! ## Control flow (40_control.md) -/

/-- CLS clears every pixel, emits Display.Clear, moves on, and changes nothing else (R84; the event for an already clear
frame is decision D27). -/
def Obligations.ClsClearsTheFramebuffer : Prop :=
  ∀ s : State, ∃ t, exec .cls s = .next t ∧
    (∀ px py, t.fb.pixel px py = false) ∧ t.pc = s.pc + 2 ∧ t.events = s.events ++ [.displayClear] ∧
    t = { s with fb := t.fb, pc := t.pc, events := t.events } ∧ s.SameMemory t

/-- RET pops the top slot and goes to that address plus 2; with SP = 0 it halts with StackUnderflow (R85; the halt is
decision D7). -/
def Obligations.RetGoesPastTheMatchingCall : Prop :=
  ∀ s : State,
    (∀ h : 0 < s.sp.val, ∃ t, exec .ret s = .next t ∧
      t.pc = (s.stack[s.sp.val - 1]'(by omega)) + 2 ∧ t.sp.val + 1 = s.sp.val ∧
      t = { s with pc := t.pc, sp := t.sp } ∧ s.SameMemory t) ∧
    (s.sp.val = 0 → ∃ t, exec .ret s = .next t ∧ s.OnlyHalted t .stackUnderflow)

/-- CALL pushes its own address and goes to nnn; with SP = 16 it halts with StackOverflow (R87). -/
def Obligations.CallPushesItsOwnAddress : Prop :=
  ∀ (s : State) (nnn : Addr12),
    (∀ h : s.sp.val < 16, ∃ t, exec (.call nnn) s = .next t ∧
      t.pc.toNat = nnn.toNat ∧ t.sp.val = s.sp.val + 1 ∧ t.stack[s.sp.val] = s.pc ∧
      (∀ j : Fin 16, j.val ≠ s.sp.val → t.stack[j] = s.stack[j]) ∧
      t = { s with pc := t.pc, sp := t.sp, stack := t.stack } ∧ s.SameMemory t) ∧
    (s.sp.val = 16 → ∃ t, exec (.call nnn) s = .next t ∧ s.OnlyHalted t .stackOverflow)

/-- A CALL and the RET after it come back to the instruction after the CALL with everything else as it was, but for the
one slot that keeps the pushed address (R34, R35, R36). -/
def Obligations.CallThenRetComesBack : Prop :=
  ∀ (s : State) (nnn : Addr12), s.sp.val < 16 →
    ∃ t u, exec (.call nnn) s = .next t ∧ exec .ret t = .next u ∧
      u = { s with pc := s.pc + 2, stack := u.stack } ∧
      (∀ j : Fin 16, j.val ≠ s.sp.val → u.stack[j] = s.stack[j]) ∧
      (∀ j : Fin 16, j.val = s.sp.val → u.stack[j] = s.pc)

/-- Families 1 and B are JP and JP V0 with nnn = op[11:0]; JP goes to nnn, and JP V0 to nnn + V0 without wrapping; nothing
else changes (R86, R88). -/
def Obligations.JumpsGoToTheirTargets : Prop :=
  (∀ (z : Config.ZeroFamilyDecode) (op : Word), opFamily op = 0x1 → decode z op = .ok (.jp (opNNN op))) ∧
  (∀ (z : Config.ZeroFamilyDecode) (op : Word), opFamily op = 0xB → decode z op = .ok (.jpV0 (opNNN op))) ∧
  ∀ (s : State) (nnn : Addr12),
    (∃ t, exec (.jp nnn) s = .next t ∧ t.pc.toNat = nnn.toNat ∧ s.OnlyPc t) ∧
    (∃ t, exec (.jpV0 nnn) s = .next t ∧ t.pc.toNat = nnn.toNat + (s.reg 0).toNat ∧ s.OnlyPc t)

/-- Families 3 and 4 are SE and SNE with an immediate, x = op[11:8] and kk = op[7:0]: PC + 4 if V[x] equals (does not equal)
kk, else PC + 2, and nothing else (R89, R90). -/
def Obligations.SkipsCompareWithImmediate : Prop :=
  (∀ (z : Config.ZeroFamilyDecode) (op : Word), opFamily op = 0x3 → decode z op = .ok (.seByte (opX op) (opKK op))) ∧
  (∀ (z : Config.ZeroFamilyDecode) (op : Word), opFamily op = 0x4 → decode z op = .ok (.sneByte (opX op) (opKK op))) ∧
  ∀ (s : State) (x : RegIdx) (kk : Byte),
    (∃ t, exec (.seByte x kk) s = .next t ∧ s.OnlyPc t ∧
      ((s.reg x).toNat = kk.toNat → t.pc = s.pc + 4) ∧ ((s.reg x).toNat ≠ kk.toNat → t.pc = s.pc + 2)) ∧
    (∃ t, exec (.sneByte x kk) s = .next t ∧ s.OnlyPc t ∧
      ((s.reg x).toNat ≠ kk.toNat → t.pc = s.pc + 4) ∧ ((s.reg x).toNat = kk.toNat → t.pc = s.pc + 2))

/-- Families 5 and 9 are SE and SNE with two registers, x = op[11:8], y = op[7:4] and whatever op[3:0]: PC + 4 if V[x] equals
(does not equal) V[y], else PC + 2, and nothing else (R91, R92). -/
def Obligations.SkipsCompareTwoRegisters : Prop :=
  (∀ (z : Config.ZeroFamilyDecode) (op : Word), opFamily op = 0x5 → decode z op = .ok (.seReg (opX op) (opY op))) ∧
  (∀ (z : Config.ZeroFamilyDecode) (op : Word), opFamily op = 0x9 → decode z op = .ok (.sneReg (opX op) (opY op))) ∧
  ∀ (s : State) (x y : RegIdx),
    (∃ t, exec (.seReg x y) s = .next t ∧ s.OnlyPc t ∧
      ((s.reg x).toNat = (s.reg y).toNat → t.pc = s.pc + 4) ∧
      ((s.reg x).toNat ≠ (s.reg y).toNat → t.pc = s.pc + 2)) ∧
    (∃ t, exec (.sneReg x y) s = .next t ∧ s.OnlyPc t ∧
      ((s.reg x).toNat ≠ (s.reg y).toNat → t.pc = s.pc + 4) ∧
      ((s.reg x).toNat = (s.reg y).toNat → t.pc = s.pc + 2))

/-! ## ALU (41_alu.md) -/

/-- Family 6 is LD Vx, byte; it writes kk to V[x], VF included when x = F, and nothing else (R96). -/
def Obligations.LoadImmediateWritesOneRegister : Prop :=
  (∀ (z : Config.ZeroFamilyDecode) (op : Word), opFamily op = 0x6 → decode z op = .ok (.ldByte (opX op) (opKK op))) ∧
  ∀ (s : State) (x : RegIdx) (kk : Byte), ∃ t, exec (.ldByte x kk) s = .next t ∧ s.WroteReg t x kk

/-- Family 7 is ADD Vx, byte; it writes (V[x] + kk) mod 256 to V[x] and no flag (R97). -/
def Obligations.AddImmediateWrapsWithoutFlag : Prop :=
  (∀ (z : Config.ZeroFamilyDecode) (op : Word), opFamily op = 0x7 → decode z op = .ok (.addByte (opX op) (opKK op))) ∧
  ∀ (s : State) (x : RegIdx) (kk : Byte), ∃ t, exec (.addByte x kk) s = .next t ∧
    s.WroteReg t x (t.reg x) ∧ (t.reg x).toNat = ((s.reg x).toNat + kk.toNat) % 256

/-- Family 8 with op[3:0] = 0 is LD Vx, Vy; it copies a register and writes nothing else (R98). -/
def Obligations.CopyRegisterWritesOneRegister : Prop :=
  (∀ (z : Config.ZeroFamilyDecode) (op : Word), opFamily op = 0x8 → opN op = 0x0 →
    decode z op = .ok (.ldReg (opX op) (opY op))) ∧
  ∀ (s : State) (x y : RegIdx), ∃ t, exec (.ldReg x y) s = .next t ∧ s.WroteReg t x (s.reg y)

/-- OR, AND and XOR write the bitwise result to V[x] and nothing else (R99, R100, R101; that VF is unchanged unless
x = F is decision D14). -/
def Obligations.LogicOperationsActBitwise : Prop :=
  ∀ (s : State) (x y : RegIdx),
    (∃ t, exec (.orReg x y) s = .next t ∧ s.WroteReg t x (t.reg x) ∧
      ∀ b, (t.reg x).getLsbD b = ((s.reg x).getLsbD b || (s.reg y).getLsbD b)) ∧
    (∃ t, exec (.andReg x y) s = .next t ∧ s.WroteReg t x (t.reg x) ∧
      ∀ b, (t.reg x).getLsbD b = ((s.reg x).getLsbD b && (s.reg y).getLsbD b)) ∧
    (∃ t, exec (.xorReg x y) s = .next t ∧ s.WroteReg t x (t.reg x) ∧
      ∀ b, (t.reg x).getLsbD b = ((s.reg x).getLsbD b ^^ (s.reg y).getLsbD b))

/-- ADD Vx, Vy: the sum modulo 256 and the carry out of bit 7 (R102; x = F is decision D12). -/
def Obligations.AddSetsCarry : Prop :=
  ∀ (s : State) (x y : RegIdx), ∃ t, exec (.addReg x y) s = .next t ∧
    s.WroteBack t x (((s.reg x).toNat + (s.reg y).toNat) % 256)
      (if (s.reg x).toNat + (s.reg y).toNat > 255 then 1 else 0)

/-- SUB Vx, Vy: V[x] - V[y] modulo 256, and 1 when there is no borrow (R103; x = F is decision D12). -/
def Obligations.SubSetsNotBorrow : Prop :=
  ∀ (s : State) (x y : RegIdx), ∃ t, exec (.subReg x y) s = .next t ∧
    s.WroteBack t x (((s.reg x).toNat + 256 - (s.reg y).toNat) % 256)
      (if (s.reg y).toNat > (s.reg x).toNat then 0 else 1)

/-- SUBN Vx, Vy: V[y] - V[x] modulo 256, and 1 when there is no borrow (R105; x = F is decision D12). -/
def Obligations.SubnSetsNotBorrow : Prop :=
  ∀ (s : State) (x y : RegIdx), ∃ t, exec (.subnReg x y) s = .next t ∧
    s.WroteBack t x (((s.reg y).toNat + 256 - (s.reg x).toNat) % 256)
      (if (s.reg x).toNat > (s.reg y).toNat then 0 else 1)

/-- SHR: the operand halved, and the bit shifted out; the operand is V[x], or V[y] under SHIFT_SOURCE = VY (R104 with
decision D13; x = F is decision D12). -/
def Obligations.ShrShiftsOneBitIntoVf : Prop :=
  ∀ (s : State) (x y : RegIdx), ∃ t, exec (.shrReg x y) s = .next t ∧
    s.WroteBack t x (shiftedValue x y s / 2) (shiftedValue x y s % 2)

/-- SHL: the operand doubled modulo 256, and the bit shifted out; the operand is V[x], or V[y] under SHIFT_SOURCE = VY
(R106 with decision D13; x = F is decision D12). -/
def Obligations.ShlShiftsOneBitIntoVf : Prop :=
  ∀ (s : State) (x y : RegIdx), ∃ t, exec (.shlReg x y) s = .next t ∧
    s.WroteBack t x (shiftedValue x y s * 2 % 256) (shiftedValue x y s / 128)

/-- The ALU's laws, for a destination that is not VF (R109): result and flag together give back the exact sum, difference
or shift. -/
def Obligations.ResultAndFlagDetermineTheExactValue : Prop :=
  ∀ (s t : State) (x y : RegIdx), x ≠ vf →
    (exec (.addReg x y) s = .next t →
      (t.reg x).toNat + 256 * (t.reg vf).toNat = (s.reg x).toNat + (s.reg y).toNat) ∧
    (exec (.subReg x y) s = .next t →
      (t.reg x).toNat + (s.reg y).toNat + 256 * (t.reg vf).toNat = (s.reg x).toNat + 256) ∧
    (exec (.subnReg x y) s = .next t →
      (t.reg x).toNat + (s.reg x).toNat + 256 * (t.reg vf).toNat = (s.reg y).toNat + 256) ∧
    (exec (.shrReg x y) s = .next t → (t.reg x).toNat * 2 + (t.reg vf).toNat = shiftedValue x y s) ∧
    (exec (.shlReg x y) s = .next t → (t.reg x).toNat + 256 * (t.reg vf).toNat = shiftedValue x y s * 2)

/-- RND writes the tick's random byte ANDed with kk to V[x], and nothing else (R107); the byte is the host's for the tick
if one is queued, and otherwise the free value of the tick's number, which nothing constrains (R108 with decision D20;
log 9). -/
def Obligations.RndMasksTheRandomByte : Prop :=
  ∀ (s : State) (x : RegIdx) (kk : Byte), ∃ t, exec (.rnd x kk) s = .next t ∧ s.WroteReg t x (t.reg x) ∧
    (∀ b, (t.reg x).getLsbD b = (s.randomByte.getLsbD b && kk.getLsbD b)) ∧
    (∀ keys rnd rest, s.inputs = ⟨keys, rnd⟩ :: rest → s.randomByte = rnd) ∧
    (s.inputs = [] → s.randomByte = Config.freeRandom s.ticks)

/-! ## Index register and memory (42_index_memory.md) -/

/-- Family A is LD I, addr; it writes nnn to I and nothing else (R110). -/
def Obligations.LoadIndexWritesI : Prop :=
  (∀ (z : Config.ZeroFamilyDecode) (op : Word), opFamily op = 0xA → decode z op = .ok (.ldI (opNNN op))) ∧
  ∀ (s : State) (nnn : Addr12), ∃ t, exec (.ldI nnn) s = .next t ∧ s.OnlyPcIndex t ∧ t.pc = s.pc + 2 ∧
    t.i.toNat = nnn.toNat

/-- ADD I, Vx adds modulo 65536 with no flag and no halt (R111; the wrap is decision D16); LD F, Vx makes I five times
V[x] for every V[x] (R112; above 15 it is decision D17). -/
def Obligations.IndexArithmeticWritesIOnly : Prop :=
  ∀ (s : State) (x : RegIdx),
    (∃ t, exec (.addI x) s = .next t ∧ s.OnlyPcIndex t ∧ t.pc = s.pc + 2 ∧
      t.i.toNat = (s.i.toNat + (s.reg x).toNat) % 65536) ∧
    (∃ t, exec (.ldF x) s = .next t ∧ s.OnlyPcIndex t ∧ t.pc = s.pc + 2 ∧ t.i.toNat = (s.reg x).toNat * 5)

/-- LD B, Vx stores the decimal digits of V[x] at I, I + 1 and I + 2 and changes no other byte and no register (R113),
when the three addresses exist. -/
def Obligations.DecimalDigitsAreStoredAtI : Prop :=
  ∀ (s : State) (x : RegIdx), s.MemoryWf → s.i.toNat + 2 < 4096 →
    ∃ t, exec (.ldB x) s = .next t ∧ t.pc = s.pc + 2 ∧ t = { s with pc := t.pc, mem := t.mem } ∧
      (t.mem.read s.i.toNat).toNat = (s.reg x).toNat / 100 ∧
      (t.mem.read (s.i.toNat + 1)).toNat = (s.reg x).toNat / 10 % 10 ∧
      (t.mem.read (s.i.toNat + 2)).toNat = (s.reg x).toNat % 10 ∧
      s.SameMemoryOutside t s.i.toNat 3

/-- LD [I], Vx stores V0 to Vx at I, …, I + x and changes no other byte; I afterwards is as I_AFTER_BLOCK says (R114, and
R116 with decision D15), when the addresses exist. -/
def Obligations.RegisterBlockIsStoredAtI : Prop :=
  ∀ (s : State) (x : RegIdx), s.MemoryWf → s.i.toNat + x.val < 4096 →
    ∃ t, exec (.storeRegs x) s = .next t ∧ t.pc = s.pc + 2 ∧ t = { s with pc := t.pc, mem := t.mem, i := t.i } ∧
      (∀ k : RegIdx, k.val ≤ x.val → t.mem.read (s.i.toNat + k.val) = s.reg k) ∧
      s.SameMemoryOutside t s.i.toNat (x.val + 1) ∧
      t.i.toNat = (if s.params.iAfterBlock = .increment then (s.i.toNat + x.val + 1) % 65536 else s.i.toNat)

/-- LD Vx, [I] loads V0 to Vx from I, …, I + x and keeps the other registers and all of memory; I afterwards is as
I_AFTER_BLOCK says (R115, and R116 with decision D15), when the addresses exist. -/
def Obligations.RegisterBlockIsLoadedFromI : Prop :=
  ∀ (s : State) (x : RegIdx), s.i.toNat + x.val < 4096 →
    ∃ t, exec (.loadRegs x) s = .next t ∧ t.pc = s.pc + 2 ∧ t = { s with pc := t.pc, v := t.v, i := t.i } ∧
      (∀ k : RegIdx, k.val ≤ x.val → t.reg k = s.mem.read (s.i.toNat + k.val)) ∧
      (∀ k : RegIdx, x.val < k.val → t.reg k = s.reg k) ∧ s.SameMemory t ∧
      t.i.toNat = (if s.params.iAfterBlock = .increment then (s.i.toNat + x.val + 1) % 65536 else s.i.toNat)

/-- An access range that reaches 4096 halts with MemoryOutOfRange, carrying the lowest address of the range that is 4096 or
more, before anything is written: Fx33, Fx55, Fx65, and Dxyn before its edges are looked at (R113, R114, R115, R117, R121,
R135: decisions D6, D8 and D31). -/
def Obligations.AccessBeyondMemoryHaltsFirst : Prop :=
  ∀ (s : State) (x y : RegIdx) (n : Nat),
    (4096 ≤ s.i.toNat + 2 → ∃ t, exec (.ldB x) s = .next t ∧
      s.OnlyHalted t (.memoryOutOfRange (max s.i.toNat 4096))) ∧
    (4096 ≤ s.i.toNat + x.val → ∃ t, exec (.storeRegs x) s = .next t ∧
      s.OnlyHalted t (.memoryOutOfRange (max s.i.toNat 4096))) ∧
    (4096 ≤ s.i.toNat + x.val → ∃ t, exec (.loadRegs x) s = .next t ∧
      s.OnlyHalted t (.memoryOutOfRange (max s.i.toNat 4096))) ∧
    (0 < n → 4096 < s.i.toNat + n → ∃ t, exec (.drw x y n) s = .next t ∧
      s.OnlyHalted t (.memoryOutOfRange (max s.i.toNat 4096)))

/-- Self-modifying code: two registers stored side by side by Fx55 are the word of a later fetch there (R64, R157). -/
def Obligations.FetchSeesTheStoredBlock : Prop :=
  ∀ (s t : State) (x k k' : RegIdx), s.MemoryWf → s.i.toNat + x.val < 4096 → k'.val = k.val + 1 → k'.val ≤ x.val →
    exec (.storeRegs x) s = .next t →
    ∃ op : Word, State.fetch { t with pc := BitVec.ofNat 16 (s.i.toNat + k.val) } = .ok op ∧
      op.toNat = (s.reg k).toNat * 256 + (s.reg k').toNat

/-! ## Draw (43_draw.md) -/

/-- DRW inverts exactly the pixels its set bits land on, sets VF to 1 exactly when one of them was set, emits the new
frame, and changes nothing else (R121; the bit order is decision D11, the edges decision D9, the reading of the coordinates
before VF is written decision D10). It holds for every edge mode; under FAULT every set bit must lie in the grid. -/
def Obligations.DrawInvertsTheCoveredPixels : Prop :=
  ∀ (s : State) (x y : RegIdx) (n : Nat), n ≤ 15 → (n = 0 ∨ s.i.toNat + n ≤ 4096) →
    (s.params.drawEdgeMode = .fault → s.SpriteInside x y n) →
    ∃ t, exec (.drw x y n) s = .next t ∧ t.pc = s.pc + 2 ∧ t.events = s.events ++ [.displayDraw t.fb] ∧
      t = { s with pc := t.pc, v := t.v, fb := t.fb, events := t.events } ∧ s.SameMemory t ∧
      (∀ z : RegIdx, z ≠ vf → t.reg z = s.reg z) ∧
      (∀ px py, px < 64 → py < 32 →
        (t.fb.pixel px py ≠ s.fb.pixel px py ↔ s.SpriteCovers x y n px py)) ∧
      ((t.reg vf).toNat = 1 ↔ ∃ px py, px < 64 ∧ py < 32 ∧ s.SpriteCovers x y n px py ∧ s.fb.pixel px py = true) ∧
      (t.reg vf).toNat ≤ 1

/-- Under FAULT, the first set bit outside the grid, in row-major order, halts the draw with its column and row, before
anything is written (R120, R121: decision D9). -/
def Obligations.DrawOutsideGridHaltsUnderFault : Prop :=
  ∀ (s : State) (x y : RegIdx) (n r c : Nat), (n = 0 ∨ s.i.toNat + n ≤ 4096) → s.params.drawEdgeMode = .fault →
    r < n → c < 8 → s.SpriteBit r c → (64 ≤ (s.reg x).toNat + c ∨ 32 ≤ (s.reg y).toNat + r) →
    (∀ r' c' : Nat, r' < n → c' < 8 → s.SpriteBit r' c' → (r' < r ∨ (r' = r ∧ c' < c)) →
      (s.reg x).toNat + c' < 64 ∧ (s.reg y).toNat + r' < 32) →
    ∃ t, exec (.drw x y n) s = .next t ∧
      s.OnlyHalted t (.drawOutOfBounds ((s.reg x).toNat + c) ((s.reg y).toNat + r))

/-- Drawing the same sprite at the same place twice restores the framebuffer (R123). The second draw leaves VF = 1 exactly
when some pixel the sprite lands on was clear before the first draw: that is what R121 gives, and where the sprite lands on
clear pixels only, it is R123's "exactly when the sprite has at least one target" (log 20). -/
def Obligations.DrawingTwiceRestoresTheFrame : Prop :=
  ∀ (s t : State) (x y : RegIdx) (n : Nat), n ≤ 15 → s.run = .running → exec (.drw x y n) s = .next t →
    t.run = .running → t.reg x = s.reg x → t.reg y = s.reg y →
    ∃ u, exec (.drw x y n) t = .next u ∧ u.run = .running ∧ u.fb = s.fb ∧
      ((u.reg vf).toNat = 1 ↔
        ∃ px py, px < 64 ∧ py < 32 ∧ s.SpriteCovers x y n px py ∧ s.fb.pixel px py = false)

/-- R123's sentence on the second of two equal draws, taken as it stands, over every background. It FAILS: where every
pixel the sprite lands on was set before the first draw, the second draw finds them clear and leaves VF = 0, as R121 says.
The model follows R121 (log 20). -/
def Obligations.SecondDrawAlwaysCollidesIfTheSpriteHasATarget : Prop :=
  ∀ (s t u : State) (x y : RegIdx) (n : Nat), n ≤ 15 → s.run = .running → exec (.drw x y n) s = .next t →
    t.run = .running → t.reg x = s.reg x → t.reg y = s.reg y → exec (.drw x y n) t = .next u →
    ((u.reg vf).toNat = 1 ↔ ∃ px py, px < 64 ∧ py < 32 ∧ s.SpriteCovers x y n px py)

/-! ## Keypad and timers (44_keys_timers.md) -/

/-- SKP and SKNP: PC + 4 if key V[x] is held (not held) in the tick's sample, else PC + 2, and nothing else (R125, R126);
with V[x] above 15 they halt with KeyIndexOutOfRange (R124: decision D18). The sample is the host's for the tick if one is
queued (R39 with decision D19, R145), and otherwise the free value of the tick's number, which nothing constrains (log 9). -/
def Obligations.KeySkipsTestTheSample : Prop :=
  ∀ (s : State) (x : RegIdx),
    (∀ keys rnd rest, s.inputs = ⟨keys, rnd⟩ :: rest → s.keys = keys) ∧
    (s.inputs = [] → s.keys = Config.freeKeys s.ticks) ∧
    ((s.reg x).toNat ≤ 15 →
      (∃ t, exec (.skp x) s = .next t ∧ s.OnlyPc t ∧
        t.pc = s.pc + (if s.keys.getLsbD (s.reg x).toNat = true then 4 else 2)) ∧
      (∃ t, exec (.sknp x) s = .next t ∧ s.OnlyPc t ∧
        t.pc = s.pc + (if s.keys.getLsbD (s.reg x).toNat = true then 2 else 4))) ∧
    (15 < (s.reg x).toNat →
      (∃ t, exec (.skp x) s = .next t ∧ s.OnlyHalted t (.keyIndexOutOfRange (s.reg x))) ∧
      (∃ t, exec (.sknp x) s = .next t ∧ s.OnlyHalted t (.keyIndexOutOfRange (s.reg x))))

/-- Family F with op[7:0] = 0x0A is LD Vx, K: with a key held in the tick's sample, the least held index goes to V[x] and PC
moves on; with none held nothing changes at all (R127). -/
def Obligations.KeyWaitTakesTheLeastHeldKey : Prop :=
  (∀ (z : Config.ZeroFamilyDecode) (op : Word), opFamily op = 0xF → (opKK op).toNat = 0x0A →
    decode z op = .ok (.ldVxK (opX op))) ∧
  ∀ (s : State) (x : RegIdx),
    (∀ k : Fin 16, s.keys.getLsbD k.val = true → (∀ j : Fin 16, j.val < k.val → s.keys.getLsbD j.val = false) →
      ∃ t, exec (.ldVxK x) s = .next t ∧ s.WroteReg t x (t.reg x) ∧ (t.reg x).toNat = k.val) ∧
    ((∀ k : Fin 16, s.keys.getLsbD k.val = false) → exec (.ldVxK x) s = .next s)

/-- The timer registers: Fx07 reads DT into V[x], Fx15 writes DT and Fx18 writes ST from V[x]; each changes nothing else
and emits nothing (R128, R129, R130). -/
def Obligations.TimerRegistersReadAndWrite : Prop :=
  ∀ (s : State) (x : RegIdx),
    (∃ t, exec (.ldVxDt x) s = .next t ∧ s.WroteReg t x s.dt) ∧
    (∃ t, exec (.ldDtVx x) s = .next t ∧ t = { s with pc := s.pc + 2, dt := s.reg x } ∧ s.SameMemory t) ∧
    (∃ t, exec (.ldStVx x) s = .next t ∧ t = { s with pc := s.pc + 2, st := s.reg x } ∧ s.SameMemory t)

/-! ## Construction and load -/

/-- After construction, whatever the launch parameters, PC is 0x200 and both timers are 0 (R43, R44). -/
def Obligations.ConstructionSetsPcAndTimers : Prop :=
  State.reset.pc = 0x200 ∧ State.reset.dt = 0 ∧ State.reset.st = 0 ∧
  ∀ l : Launch, (State.construct l).pc = 0x200 ∧ (State.construct l).dt = 0 ∧ (State.construct l).st = 0

/-- After construction the font parameter stands at 0x000 to 0x04F (R66), SP is 0 (R45, derived), the block is RUNNING and
not loaded, and the registers, I, the framebuffer and the other memory are the launch parameters (R47 to R50: decision D21;
what the initial memory is short of reads 0, log 4). The stack slots, unspecified by R46 (derived), are the launch's too
(log 5). -/
def Obligations.ConstructionTakesTheLaunchParameters : Prop :=
  ∀ l : Launch,
    (∀ k : Fin 80, (State.construct l).mem.read k.val = l.font[k]) ∧
    (∀ a, 80 ≤ a → a < 4096 → (State.construct l).mem.read a = l.initMem.getD a 0) ∧
    (State.construct l).sp.val = 0 ∧ (State.construct l).run = .running ∧ (State.construct l).loaded = false ∧
    (∀ x, (State.construct l).reg x = l.initV[x]) ∧ (State.construct l).i = l.initI ∧
    (State.construct l).fb = l.initFb ∧ (State.construct l).stack = l.initStack ∧
    (State.construct l).params = l.params

/-- A program of at most 3584 bytes is placed at 0x200 and the block is marked as loaded, with nothing else changed; a
longer one is rejected with its length (R67). -/
def Obligations.LoadPlacesTheProgramOrRejectsIt : Prop :=
  ∀ (s : State) (bytes : List Byte), s.loaded = false → s.MemoryWf →
    (bytes.length ≤ 3584 → ∃ t, s.loadProgram bytes = .accepted t ∧ t.loaded = true ∧
      t = { s with mem := t.mem, loaded := t.loaded } ∧
      (∀ k (h : k < bytes.length), t.mem.read (0x200 + k) = bytes[k]) ∧
      s.SameMemoryOutside t 0x200 bytes.length) ∧
    (3584 < bytes.length → s.loadProgram bytes = .rejected bytes.length)
end

