-- ==== Sys2Proof/Laws/Decode.lean ====
section
/-!
SUPPORT. The fields of a word as numbers, the word of two bytes as a number, and the fields of an encoded word.
-/

namespace Sys2Proof

/-- op[15:12] as a number. -/
theorem opFamily_eq (op : Word) : opFamily op = op.toNat / 4096 := by
  have := op.isLt
  simp only [opFamily, BitVec.extractLsb'_toNat, Nat.shiftRight_eq_div_pow]
  omega

/-- op[3:0] as a number. -/
theorem opN_eq (op : Word) : opN op = op.toNat % 16 := by
  simp [opN, BitVec.extractLsb'_toNat]

/-- op[7:0] as a number. -/
theorem toNat_opKK (op : Word) : (opKK op).toNat = op.toNat % 256 := by
  simp [opKK, BitVec.extractLsb'_toNat]

/-- zext_16 keeps the value. -/
@[simp] theorem toNat_zext16 (a : Addr12) : (zext16 a).toNat = a.toNat := by
  have := a.isLt
  simp only [zext16, BitVec.toNat_setWidth]
  omega

/-- (hi << 8) | lo as a number. -/
theorem toNat_opcodeOfBytes (hi lo : Byte) : (opcodeOfBytes hi lo).toNat = hi.toNat * 256 + lo.toNat := by
  have h1 := hi.isLt
  have h2 : lo.toNat < 2 ^ 8 := lo.isLt
  have h := Nat.shiftLeft_add_eq_or_of_lt h2 hi.toNat
  simp only [opcodeOfBytes, BitVec.toNat_or, BitVec.toNat_shiftLeft, BitVec.toNat_setWidth]
  rw [Nat.mod_eq_of_lt (show hi.toNat < 2 ^ 16 by omega), Nat.mod_eq_of_lt (show lo.toNat < 2 ^ 16 by omega),
    Nat.mod_eq_of_lt (by rw [Nat.shiftLeft_eq]; omega), ← h, Nat.shiftLeft_eq]

/-- The first byte of a big-endian word and the second give the word back. -/
theorem opcodeOfBytes_split (w : Word) : opcodeOfBytes (w.extractLsb' 8 8) (w.extractLsb' 0 8) = w := by
  apply BitVec.eq_of_getLsbD_eq
  intro i hi
  interval_cases i <;> simp [opcodeOfBytes]

/-- A register index survives its 4-bit field. -/
theorem regField_toNat (x : RegIdx) : (regField x).toNat = x.val := by
  simp [regField]

/-! ### The fields of an encoded word -/

theorem encodeNNN_fields (t : BitVec 4) (a : Addr12) :
    (encodeNNN t a).extractLsb' 12 4 = t ∧ (encodeNNN t a).extractLsb' 0 12 = a := by
  constructor <;>
    (apply BitVec.eq_of_getLsbD_eq; intro i hi; interval_cases i <;> simp [encodeNNN, nibbleAt])

theorem encodeXKK_fields (t : BitVec 4) (x : RegIdx) (k : Byte) :
    (encodeXKK t x k).extractLsb' 12 4 = t ∧ (encodeXKK t x k).extractLsb' 8 4 = regField x ∧
      (encodeXKK t x k).extractLsb' 0 8 = k := by
  refine ⟨?_, ?_, ?_⟩ <;>
    (apply BitVec.eq_of_getLsbD_eq; intro i hi; interval_cases i <;> simp [encodeXKK, nibbleAt])

theorem encodeXYN_fields (t : BitVec 4) (x y : RegIdx) (n : BitVec 4) :
    (encodeXYN t x y n).extractLsb' 12 4 = t ∧ (encodeXYN t x y n).extractLsb' 8 4 = regField x ∧
      (encodeXYN t x y n).extractLsb' 4 4 = regField y ∧ (encodeXYN t x y n).extractLsb' 0 4 = n := by
  refine ⟨?_, ?_, ?_, ?_⟩ <;>
    (apply BitVec.eq_of_getLsbD_eq; intro i hi; interval_cases i <;> simp [encodeXYN, nibbleAt])

end Sys2Proof
end

