-- ==== Sys2Proof/Laws/Framebuffer.lean ====
section
/-!
SUPPORT. The laws of the framebuffer: what pixel gives after toggle and after clearing, and that the pixels inside the
grid determine it.
-/

namespace Sys2Proof.Machine

@[simp] theorem Framebuffer.pixel_blank (px py : Nat) : Framebuffer.blank.pixel px py = false := by
  simp [Framebuffer.pixel, Framebuffer.blank]

/-- toggle inverts one pixel of the grid and leaves the others alone. -/
theorem Framebuffer.pixel_toggle (fb : Framebuffer) {tx ty : Nat} (px py : Nat) (hx : tx < 64) (hy : ty < 32) :
    (fb.toggle tx ty).pixel px py = (fb.pixel px py ^^ decide (tx = px ∧ ty = py)) := by
  unfold Framebuffer.toggle Framebuffer.pixel
  rw [dif_pos hy]
  by_cases hp : py < 32
  · simp only [hp, dif_pos]
    by_cases he : ty = py
    · subst he
      simp [BitVec.getLsbD_xor, BitVec.getLsbD_twoPow, hx]
    · simp [he]
  · have : ¬ ty = py := by omega
    simp [hp, this]

/-- Two framebuffers with the same pixels are equal. -/
theorem Framebuffer.ext_pixel {f g : Framebuffer} (h : ∀ px py, px < 64 → py < 32 → f.pixel px py = g.pixel px py) :
    f = g := by
  apply Vector.ext
  intro y hy
  apply BitVec.eq_of_getLsbD_eq
  intro x hx
  have := h x y hx hy
  simpa [Framebuffer.pixel, hy] using this

end Sys2Proof.Machine
end

