-- ==== Sys2Proof/Laws/Draw.lean ====
section
/-!
SUPPORT. The targets of a sprite (which they are, in what order, without repeats) and what plotting distinct targets inside
the grid does (43_draw.md R121, R123).
-/

namespace Sys2Proof.Machine

/-- The targets of one row are its set bits, bit 7 first. -/
theorem mem_rowTargets (x0 py : Nat) (row : Byte) (t : Target) :
    t ∈ rowTargets x0 py row ↔ ∃ c, c < 8 ∧ row.getLsbD (7 - c) = true ∧ t = (x0 + c, py) := by
  simp only [rowTargets, List.mem_filterMap, List.mem_range]
  refine exists_congr fun c => and_congr_right fun _ => ?_
  by_cases hb : row.getLsbD (7 - c) = true
  · rw [if_pos hb]
    simp only [Option.some.injEq, hb, true_and]
    exact eq_comm
  · rw [if_neg hb]
    simp [hb]

/-- The targets of a sprite are the set bits of its rows. -/
theorem mem_spriteTargets (x0 y0 : Nat) (rows : List Byte) (t : Target) :
    t ∈ spriteTargets x0 y0 rows ↔
      ∃ r c, ∃ h : r < rows.length, c < 8 ∧ rows[r].getLsbD (7 - c) = true ∧ t = (x0 + c, y0 + r) := by
  induction rows generalizing y0 with
  | nil => simp [spriteTargets]
  | cons row rows ih =>
    simp only [spriteTargets, List.mem_append, mem_rowTargets, ih]
    constructor
    · rintro (⟨c, hc, hb, rfl⟩ | ⟨r, c, hr, hc, hb, rfl⟩)
      · exact ⟨0, c, by simp, hc, by simpa using hb, by simp⟩
      · exact ⟨r + 1, c, by simpa using hr, hc, by simpa using hb, by simp; omega⟩
    · rintro ⟨r, c, hr, hc, hb, rfl⟩
      cases r with
      | zero => exact .inl ⟨c, hc, by simpa using hb, by simp⟩
      | succ r => exact .inr ⟨r, c, by simpa using hr, hc, by simpa using hb, by simp; omega⟩

/-- Within a row the columns rise. -/
theorem rowTargets_sorted (x0 py : Nat) (row : Byte) :
    (rowTargets x0 py row).Pairwise fun a b => a.2 = py ∧ b.2 = py ∧ a.1 < b.1 := by
  unfold rowTargets
  rw [List.pairwise_filterMap]
  refine List.Pairwise.imp ?_ List.pairwise_lt_range
  intro a b hab x hx y hy
  simp only [Option.ite_none_right_eq_some, Option.some.injEq] at hx hy
  obtain ⟨_, rfl⟩ := hx
  obtain ⟨_, rfl⟩ := hy
  exact ⟨rfl, rfl, by simp only; omega⟩

/-- The targets of a sprite are in row-major order. -/
theorem spriteTargets_sorted (x0 y0 : Nat) (rows : List Byte) :
    (spriteTargets x0 y0 rows).Pairwise fun a b => a.2 < b.2 ∨ (a.2 = b.2 ∧ a.1 < b.1) := by
  induction rows generalizing y0 with
  | nil => exact List.Pairwise.nil
  | cons row rows ih =>
    simp only [spriteTargets]
    rw [List.pairwise_append]
    refine ⟨(rowTargets_sorted x0 y0 row).imp fun h => .inr ⟨by rw [h.1, h.2.1], h.2.2⟩, ih _, ?_⟩
    intro a ha b hb
    rw [mem_rowTargets] at ha
    rw [mem_spriteTargets] at hb
    obtain ⟨_, _, _, rfl⟩ := ha
    obtain ⟨_, _, _, _, _, rfl⟩ := hb
    left
    simp only
    omega

/-- The targets of a sprite are pairwise distinct (R123). -/
theorem spriteTargets_nodup (x0 y0 : Nat) (rows : List Byte) : (spriteTargets x0 y0 rows).Nodup := by
  refine (spriteTargets_sorted x0 y0 rows).imp ?_
  rintro a b h rfl
  omega

/-- Plotting distinct targets inside the grid inverts those pixels and no other. -/
theorem plot_pixel (ts : List Target) (fb : Framebuffer) (b : Bool) (hb : ∀ t ∈ ts, t.1 < 64 ∧ t.2 < 32) (hn : ts.Nodup)
    (px py : Nat) :
    (ts.foldl plotTarget (fb, b)).1.pixel px py = (fb.pixel px py ^^ decide ((px, py) ∈ ts)) := by
  induction ts generalizing fb b with
  | nil => simp
  | cons t ts ih =>
    obtain ⟨tx, ty⟩ := t
    have h1 := hb (tx, ty) List.mem_cons_self
    rw [List.nodup_cons] at hn
    simp only [List.foldl_cons]
    rw [show plotTarget (fb, b) (tx, ty) = (fb.toggle tx ty, b || fb.pixel tx ty) from rfl,
      ih _ _ (fun t ht => hb t (List.mem_cons_of_mem _ ht)) hn.2, Framebuffer.pixel_toggle _ _ _ h1.1 h1.2]
    by_cases he : (px, py) = (tx, ty)
    · obtain ⟨rfl, rfl⟩ := Prod.mk.inj he
      simp [hn.1]
    · have hne : ¬ (tx = px ∧ ty = py) := by
        rintro ⟨rfl, rfl⟩
        exact he rfl
      simp [he, hne]

/-- Plotting distinct targets inside the grid collides exactly when one of them was set (R119). -/
theorem plot_collision (ts : List Target) (fb : Framebuffer) (b : Bool) (hb : ∀ t ∈ ts, t.1 < 64 ∧ t.2 < 32)
    (hn : ts.Nodup) : (ts.foldl plotTarget (fb, b)).2 = (b || ts.any fun t => fb.pixel t.1 t.2) := by
  induction ts generalizing fb b with
  | nil => simp
  | cons t ts ih =>
    obtain ⟨tx, ty⟩ := t
    have h1 := hb (tx, ty) List.mem_cons_self
    rw [List.nodup_cons] at hn
    simp only [List.foldl_cons]
    rw [show plotTarget (fb, b) (tx, ty) = (fb.toggle tx ty, b || fb.pixel tx ty) from rfl,
      ih _ _ (fun t ht => hb t (List.mem_cons_of_mem _ ht)) hn.2]
    simp only [List.any_cons, Bool.or_assoc]
    congr 2
    rw [Bool.eq_iff_iff]
    simp only [List.any_eq_true]
    refine exists_congr fun u => and_congr_right fun hu => ?_
    rw [Framebuffer.pixel_toggle _ _ _ h1.1 h1.2]
    have hne : ¬ (tx = u.1 ∧ ty = u.2) := by
      rintro ⟨rfl, rfl⟩
      exact hn.1 hu
    simp [hne]

end Sys2Proof.Machine
end

