-- ==== Sys2Proof/Laws/State.lean ====
section
/-!
SUPPORT. One lemma per field per update of State, each true by rfl, so that no later proof unfolds a record update.
-/

namespace Sys2Proof.Machine

/-! ### setReg -/

@[simp] theorem State.setReg_mem (x : RegIdx) (b : Byte) (s : State) : (s.setReg x b).mem = s.mem := rfl
@[simp] theorem State.setReg_v (x : RegIdx) (b : Byte) (s : State) : (s.setReg x b).v = s.v.set x b := rfl
@[simp] theorem State.setReg_i (x : RegIdx) (b : Byte) (s : State) : (s.setReg x b).i = s.i := rfl
@[simp] theorem State.setReg_pc (x : RegIdx) (b : Byte) (s : State) : (s.setReg x b).pc = s.pc := rfl
@[simp] theorem State.setReg_stack (x : RegIdx) (b : Byte) (s : State) : (s.setReg x b).stack = s.stack := rfl
@[simp] theorem State.setReg_sp (x : RegIdx) (b : Byte) (s : State) : (s.setReg x b).sp = s.sp := rfl
@[simp] theorem State.setReg_dt (x : RegIdx) (b : Byte) (s : State) : (s.setReg x b).dt = s.dt := rfl
@[simp] theorem State.setReg_st (x : RegIdx) (b : Byte) (s : State) : (s.setReg x b).st = s.st := rfl
@[simp] theorem State.setReg_fb (x : RegIdx) (b : Byte) (s : State) : (s.setReg x b).fb = s.fb := rfl
@[simp] theorem State.setReg_run (x : RegIdx) (b : Byte) (s : State) : (s.setReg x b).run = s.run := rfl
@[simp] theorem State.setReg_loaded (x : RegIdx) (b : Byte) (s : State) : (s.setReg x b).loaded = s.loaded := rfl
@[simp] theorem State.setReg_params (x : RegIdx) (b : Byte) (s : State) : (s.setReg x b).params = s.params := rfl
@[simp] theorem State.setReg_inputs (x : RegIdx) (b : Byte) (s : State) : (s.setReg x b).inputs = s.inputs := rfl
@[simp] theorem State.setReg_ticks (x : RegIdx) (b : Byte) (s : State) : (s.setReg x b).ticks = s.ticks := rfl
@[simp] theorem State.setReg_events (x : RegIdx) (b : Byte) (s : State) : (s.setReg x b).events = s.events := rfl
@[simp] theorem State.setReg_keys (x : RegIdx) (b : Byte) (s : State) : (s.setReg x b).keys = s.keys := rfl
@[simp] theorem State.setReg_randomByte (x : RegIdx) (b : Byte) (s : State) : (s.setReg x b).randomByte = s.randomByte := rfl

/-! ### setRegs -/

@[simp] theorem State.setRegs_mem (w : Vector Byte 16) (s : State) : (s.setRegs w).mem = s.mem := rfl
@[simp] theorem State.setRegs_v (w : Vector Byte 16) (s : State) : (s.setRegs w).v = w := rfl
@[simp] theorem State.setRegs_i (w : Vector Byte 16) (s : State) : (s.setRegs w).i = s.i := rfl
@[simp] theorem State.setRegs_pc (w : Vector Byte 16) (s : State) : (s.setRegs w).pc = s.pc := rfl
@[simp] theorem State.setRegs_stack (w : Vector Byte 16) (s : State) : (s.setRegs w).stack = s.stack := rfl
@[simp] theorem State.setRegs_sp (w : Vector Byte 16) (s : State) : (s.setRegs w).sp = s.sp := rfl
@[simp] theorem State.setRegs_dt (w : Vector Byte 16) (s : State) : (s.setRegs w).dt = s.dt := rfl
@[simp] theorem State.setRegs_st (w : Vector Byte 16) (s : State) : (s.setRegs w).st = s.st := rfl
@[simp] theorem State.setRegs_fb (w : Vector Byte 16) (s : State) : (s.setRegs w).fb = s.fb := rfl
@[simp] theorem State.setRegs_run (w : Vector Byte 16) (s : State) : (s.setRegs w).run = s.run := rfl
@[simp] theorem State.setRegs_loaded (w : Vector Byte 16) (s : State) : (s.setRegs w).loaded = s.loaded := rfl
@[simp] theorem State.setRegs_params (w : Vector Byte 16) (s : State) : (s.setRegs w).params = s.params := rfl
@[simp] theorem State.setRegs_inputs (w : Vector Byte 16) (s : State) : (s.setRegs w).inputs = s.inputs := rfl
@[simp] theorem State.setRegs_ticks (w : Vector Byte 16) (s : State) : (s.setRegs w).ticks = s.ticks := rfl
@[simp] theorem State.setRegs_events (w : Vector Byte 16) (s : State) : (s.setRegs w).events = s.events := rfl
@[simp] theorem State.setRegs_reg (w : Vector Byte 16) (s : State) (z : RegIdx) : (s.setRegs w).reg z = w[z] := rfl
@[simp] theorem State.setRegs_keys (w : Vector Byte 16) (s : State) : (s.setRegs w).keys = s.keys := rfl
@[simp] theorem State.setRegs_randomByte (w : Vector Byte 16) (s : State) : (s.setRegs w).randomByte = s.randomByte := rfl

/-! ### setIndex -/

@[simp] theorem State.setIndex_mem (w : Word) (s : State) : (s.setIndex w).mem = s.mem := rfl
@[simp] theorem State.setIndex_v (w : Word) (s : State) : (s.setIndex w).v = s.v := rfl
@[simp] theorem State.setIndex_i (w : Word) (s : State) : (s.setIndex w).i = w := rfl
@[simp] theorem State.setIndex_pc (w : Word) (s : State) : (s.setIndex w).pc = s.pc := rfl
@[simp] theorem State.setIndex_stack (w : Word) (s : State) : (s.setIndex w).stack = s.stack := rfl
@[simp] theorem State.setIndex_sp (w : Word) (s : State) : (s.setIndex w).sp = s.sp := rfl
@[simp] theorem State.setIndex_dt (w : Word) (s : State) : (s.setIndex w).dt = s.dt := rfl
@[simp] theorem State.setIndex_st (w : Word) (s : State) : (s.setIndex w).st = s.st := rfl
@[simp] theorem State.setIndex_fb (w : Word) (s : State) : (s.setIndex w).fb = s.fb := rfl
@[simp] theorem State.setIndex_run (w : Word) (s : State) : (s.setIndex w).run = s.run := rfl
@[simp] theorem State.setIndex_loaded (w : Word) (s : State) : (s.setIndex w).loaded = s.loaded := rfl
@[simp] theorem State.setIndex_params (w : Word) (s : State) : (s.setIndex w).params = s.params := rfl
@[simp] theorem State.setIndex_inputs (w : Word) (s : State) : (s.setIndex w).inputs = s.inputs := rfl
@[simp] theorem State.setIndex_ticks (w : Word) (s : State) : (s.setIndex w).ticks = s.ticks := rfl
@[simp] theorem State.setIndex_events (w : Word) (s : State) : (s.setIndex w).events = s.events := rfl
@[simp] theorem State.setIndex_reg (w : Word) (s : State) (z : RegIdx) : (s.setIndex w).reg z = s.reg z := rfl
@[simp] theorem State.setIndex_keys (w : Word) (s : State) : (s.setIndex w).keys = s.keys := rfl
@[simp] theorem State.setIndex_randomByte (w : Word) (s : State) : (s.setIndex w).randomByte = s.randomByte := rfl

/-! ### setDelay -/

@[simp] theorem State.setDelay_mem (b : Byte) (s : State) : (s.setDelay b).mem = s.mem := rfl
@[simp] theorem State.setDelay_v (b : Byte) (s : State) : (s.setDelay b).v = s.v := rfl
@[simp] theorem State.setDelay_i (b : Byte) (s : State) : (s.setDelay b).i = s.i := rfl
@[simp] theorem State.setDelay_pc (b : Byte) (s : State) : (s.setDelay b).pc = s.pc := rfl
@[simp] theorem State.setDelay_stack (b : Byte) (s : State) : (s.setDelay b).stack = s.stack := rfl
@[simp] theorem State.setDelay_sp (b : Byte) (s : State) : (s.setDelay b).sp = s.sp := rfl
@[simp] theorem State.setDelay_dt (b : Byte) (s : State) : (s.setDelay b).dt = b := rfl
@[simp] theorem State.setDelay_st (b : Byte) (s : State) : (s.setDelay b).st = s.st := rfl
@[simp] theorem State.setDelay_fb (b : Byte) (s : State) : (s.setDelay b).fb = s.fb := rfl
@[simp] theorem State.setDelay_run (b : Byte) (s : State) : (s.setDelay b).run = s.run := rfl
@[simp] theorem State.setDelay_loaded (b : Byte) (s : State) : (s.setDelay b).loaded = s.loaded := rfl
@[simp] theorem State.setDelay_params (b : Byte) (s : State) : (s.setDelay b).params = s.params := rfl
@[simp] theorem State.setDelay_inputs (b : Byte) (s : State) : (s.setDelay b).inputs = s.inputs := rfl
@[simp] theorem State.setDelay_ticks (b : Byte) (s : State) : (s.setDelay b).ticks = s.ticks := rfl
@[simp] theorem State.setDelay_events (b : Byte) (s : State) : (s.setDelay b).events = s.events := rfl
@[simp] theorem State.setDelay_reg (b : Byte) (s : State) (z : RegIdx) : (s.setDelay b).reg z = s.reg z := rfl
@[simp] theorem State.setDelay_keys (b : Byte) (s : State) : (s.setDelay b).keys = s.keys := rfl
@[simp] theorem State.setDelay_randomByte (b : Byte) (s : State) : (s.setDelay b).randomByte = s.randomByte := rfl

/-! ### setSound -/

@[simp] theorem State.setSound_mem (b : Byte) (s : State) : (s.setSound b).mem = s.mem := rfl
@[simp] theorem State.setSound_v (b : Byte) (s : State) : (s.setSound b).v = s.v := rfl
@[simp] theorem State.setSound_i (b : Byte) (s : State) : (s.setSound b).i = s.i := rfl
@[simp] theorem State.setSound_pc (b : Byte) (s : State) : (s.setSound b).pc = s.pc := rfl
@[simp] theorem State.setSound_stack (b : Byte) (s : State) : (s.setSound b).stack = s.stack := rfl
@[simp] theorem State.setSound_sp (b : Byte) (s : State) : (s.setSound b).sp = s.sp := rfl
@[simp] theorem State.setSound_dt (b : Byte) (s : State) : (s.setSound b).dt = s.dt := rfl
@[simp] theorem State.setSound_st (b : Byte) (s : State) : (s.setSound b).st = b := rfl
@[simp] theorem State.setSound_fb (b : Byte) (s : State) : (s.setSound b).fb = s.fb := rfl
@[simp] theorem State.setSound_run (b : Byte) (s : State) : (s.setSound b).run = s.run := rfl
@[simp] theorem State.setSound_loaded (b : Byte) (s : State) : (s.setSound b).loaded = s.loaded := rfl
@[simp] theorem State.setSound_params (b : Byte) (s : State) : (s.setSound b).params = s.params := rfl
@[simp] theorem State.setSound_inputs (b : Byte) (s : State) : (s.setSound b).inputs = s.inputs := rfl
@[simp] theorem State.setSound_ticks (b : Byte) (s : State) : (s.setSound b).ticks = s.ticks := rfl
@[simp] theorem State.setSound_events (b : Byte) (s : State) : (s.setSound b).events = s.events := rfl
@[simp] theorem State.setSound_reg (b : Byte) (s : State) (z : RegIdx) : (s.setSound b).reg z = s.reg z := rfl
@[simp] theorem State.setSound_keys (b : Byte) (s : State) : (s.setSound b).keys = s.keys := rfl
@[simp] theorem State.setSound_randomByte (b : Byte) (s : State) : (s.setSound b).randomByte = s.randomByte := rfl

/-! ### storeBytes -/

@[simp] theorem State.storeBytes_mem (a : Nat) (bs : List Byte) (s : State) : (s.storeBytes a bs).mem = s.mem.writeBytes a bs := rfl
@[simp] theorem State.storeBytes_v (a : Nat) (bs : List Byte) (s : State) : (s.storeBytes a bs).v = s.v := rfl
@[simp] theorem State.storeBytes_i (a : Nat) (bs : List Byte) (s : State) : (s.storeBytes a bs).i = s.i := rfl
@[simp] theorem State.storeBytes_pc (a : Nat) (bs : List Byte) (s : State) : (s.storeBytes a bs).pc = s.pc := rfl
@[simp] theorem State.storeBytes_stack (a : Nat) (bs : List Byte) (s : State) : (s.storeBytes a bs).stack = s.stack := rfl
@[simp] theorem State.storeBytes_sp (a : Nat) (bs : List Byte) (s : State) : (s.storeBytes a bs).sp = s.sp := rfl
@[simp] theorem State.storeBytes_dt (a : Nat) (bs : List Byte) (s : State) : (s.storeBytes a bs).dt = s.dt := rfl
@[simp] theorem State.storeBytes_st (a : Nat) (bs : List Byte) (s : State) : (s.storeBytes a bs).st = s.st := rfl
@[simp] theorem State.storeBytes_fb (a : Nat) (bs : List Byte) (s : State) : (s.storeBytes a bs).fb = s.fb := rfl
@[simp] theorem State.storeBytes_run (a : Nat) (bs : List Byte) (s : State) : (s.storeBytes a bs).run = s.run := rfl
@[simp] theorem State.storeBytes_loaded (a : Nat) (bs : List Byte) (s : State) : (s.storeBytes a bs).loaded = s.loaded := rfl
@[simp] theorem State.storeBytes_params (a : Nat) (bs : List Byte) (s : State) : (s.storeBytes a bs).params = s.params := rfl
@[simp] theorem State.storeBytes_inputs (a : Nat) (bs : List Byte) (s : State) : (s.storeBytes a bs).inputs = s.inputs := rfl
@[simp] theorem State.storeBytes_ticks (a : Nat) (bs : List Byte) (s : State) : (s.storeBytes a bs).ticks = s.ticks := rfl
@[simp] theorem State.storeBytes_events (a : Nat) (bs : List Byte) (s : State) : (s.storeBytes a bs).events = s.events := rfl
@[simp] theorem State.storeBytes_reg (a : Nat) (bs : List Byte) (s : State) (z : RegIdx) : (s.storeBytes a bs).reg z = s.reg z := rfl
@[simp] theorem State.storeBytes_keys (a : Nat) (bs : List Byte) (s : State) : (s.storeBytes a bs).keys = s.keys := rfl
@[simp] theorem State.storeBytes_randomByte (a : Nat) (bs : List Byte) (s : State) : (s.storeBytes a bs).randomByte = s.randomByte := rfl

/-! ### setFramebuffer -/

@[simp] theorem State.setFramebuffer_mem (f : Framebuffer) (s : State) : (s.setFramebuffer f).mem = s.mem := rfl
@[simp] theorem State.setFramebuffer_v (f : Framebuffer) (s : State) : (s.setFramebuffer f).v = s.v := rfl
@[simp] theorem State.setFramebuffer_i (f : Framebuffer) (s : State) : (s.setFramebuffer f).i = s.i := rfl
@[simp] theorem State.setFramebuffer_pc (f : Framebuffer) (s : State) : (s.setFramebuffer f).pc = s.pc := rfl
@[simp] theorem State.setFramebuffer_stack (f : Framebuffer) (s : State) : (s.setFramebuffer f).stack = s.stack := rfl
@[simp] theorem State.setFramebuffer_sp (f : Framebuffer) (s : State) : (s.setFramebuffer f).sp = s.sp := rfl
@[simp] theorem State.setFramebuffer_dt (f : Framebuffer) (s : State) : (s.setFramebuffer f).dt = s.dt := rfl
@[simp] theorem State.setFramebuffer_st (f : Framebuffer) (s : State) : (s.setFramebuffer f).st = s.st := rfl
@[simp] theorem State.setFramebuffer_fb (f : Framebuffer) (s : State) : (s.setFramebuffer f).fb = f := rfl
@[simp] theorem State.setFramebuffer_run (f : Framebuffer) (s : State) : (s.setFramebuffer f).run = s.run := rfl
@[simp] theorem State.setFramebuffer_loaded (f : Framebuffer) (s : State) : (s.setFramebuffer f).loaded = s.loaded := rfl
@[simp] theorem State.setFramebuffer_params (f : Framebuffer) (s : State) : (s.setFramebuffer f).params = s.params := rfl
@[simp] theorem State.setFramebuffer_inputs (f : Framebuffer) (s : State) : (s.setFramebuffer f).inputs = s.inputs := rfl
@[simp] theorem State.setFramebuffer_ticks (f : Framebuffer) (s : State) : (s.setFramebuffer f).ticks = s.ticks := rfl
@[simp] theorem State.setFramebuffer_events (f : Framebuffer) (s : State) : (s.setFramebuffer f).events = s.events := rfl
@[simp] theorem State.setFramebuffer_reg (f : Framebuffer) (s : State) (z : RegIdx) : (s.setFramebuffer f).reg z = s.reg z := rfl
@[simp] theorem State.setFramebuffer_keys (f : Framebuffer) (s : State) : (s.setFramebuffer f).keys = s.keys := rfl
@[simp] theorem State.setFramebuffer_randomByte (f : Framebuffer) (s : State) : (s.setFramebuffer f).randomByte = s.randomByte := rfl

/-! ### setPc -/

@[simp] theorem State.setPc_mem (w : Word) (s : State) : (s.setPc w).mem = s.mem := rfl
@[simp] theorem State.setPc_v (w : Word) (s : State) : (s.setPc w).v = s.v := rfl
@[simp] theorem State.setPc_i (w : Word) (s : State) : (s.setPc w).i = s.i := rfl
@[simp] theorem State.setPc_pc (w : Word) (s : State) : (s.setPc w).pc = w := rfl
@[simp] theorem State.setPc_stack (w : Word) (s : State) : (s.setPc w).stack = s.stack := rfl
@[simp] theorem State.setPc_sp (w : Word) (s : State) : (s.setPc w).sp = s.sp := rfl
@[simp] theorem State.setPc_dt (w : Word) (s : State) : (s.setPc w).dt = s.dt := rfl
@[simp] theorem State.setPc_st (w : Word) (s : State) : (s.setPc w).st = s.st := rfl
@[simp] theorem State.setPc_fb (w : Word) (s : State) : (s.setPc w).fb = s.fb := rfl
@[simp] theorem State.setPc_run (w : Word) (s : State) : (s.setPc w).run = s.run := rfl
@[simp] theorem State.setPc_loaded (w : Word) (s : State) : (s.setPc w).loaded = s.loaded := rfl
@[simp] theorem State.setPc_params (w : Word) (s : State) : (s.setPc w).params = s.params := rfl
@[simp] theorem State.setPc_inputs (w : Word) (s : State) : (s.setPc w).inputs = s.inputs := rfl
@[simp] theorem State.setPc_ticks (w : Word) (s : State) : (s.setPc w).ticks = s.ticks := rfl
@[simp] theorem State.setPc_events (w : Word) (s : State) : (s.setPc w).events = s.events := rfl
@[simp] theorem State.setPc_reg (w : Word) (s : State) (z : RegIdx) : (s.setPc w).reg z = s.reg z := rfl
@[simp] theorem State.setPc_keys (w : Word) (s : State) : (s.setPc w).keys = s.keys := rfl
@[simp] theorem State.setPc_randomByte (w : Word) (s : State) : (s.setPc w).randomByte = s.randomByte := rfl

/-! ### advance -/

@[simp] theorem State.advance_mem (s : State) : s.advance.mem = s.mem := rfl
@[simp] theorem State.advance_v (s : State) : s.advance.v = s.v := rfl
@[simp] theorem State.advance_i (s : State) : s.advance.i = s.i := rfl
@[simp] theorem State.advance_pc (s : State) : s.advance.pc = s.pc + 2 := rfl
@[simp] theorem State.advance_stack (s : State) : s.advance.stack = s.stack := rfl
@[simp] theorem State.advance_sp (s : State) : s.advance.sp = s.sp := rfl
@[simp] theorem State.advance_dt (s : State) : s.advance.dt = s.dt := rfl
@[simp] theorem State.advance_st (s : State) : s.advance.st = s.st := rfl
@[simp] theorem State.advance_fb (s : State) : s.advance.fb = s.fb := rfl
@[simp] theorem State.advance_run (s : State) : s.advance.run = s.run := rfl
@[simp] theorem State.advance_loaded (s : State) : s.advance.loaded = s.loaded := rfl
@[simp] theorem State.advance_params (s : State) : s.advance.params = s.params := rfl
@[simp] theorem State.advance_inputs (s : State) : s.advance.inputs = s.inputs := rfl
@[simp] theorem State.advance_ticks (s : State) : s.advance.ticks = s.ticks := rfl
@[simp] theorem State.advance_events (s : State) : s.advance.events = s.events := rfl
@[simp] theorem State.advance_reg (s : State) (z : RegIdx) : s.advance.reg z = s.reg z := rfl
@[simp] theorem State.advance_keys (s : State) : s.advance.keys = s.keys := rfl
@[simp] theorem State.advance_randomByte (s : State) : s.advance.randomByte = s.randomByte := rfl

/-! ### skipIf -/

@[simp] theorem State.skipIf_mem (c : Bool) (s : State) : (s.skipIf c).mem = s.mem := rfl
@[simp] theorem State.skipIf_v (c : Bool) (s : State) : (s.skipIf c).v = s.v := rfl
@[simp] theorem State.skipIf_i (c : Bool) (s : State) : (s.skipIf c).i = s.i := rfl
@[simp] theorem State.skipIf_pc (c : Bool) (s : State) : (s.skipIf c).pc = s.pc + (if c then 4 else 2) := rfl
@[simp] theorem State.skipIf_stack (c : Bool) (s : State) : (s.skipIf c).stack = s.stack := rfl
@[simp] theorem State.skipIf_sp (c : Bool) (s : State) : (s.skipIf c).sp = s.sp := rfl
@[simp] theorem State.skipIf_dt (c : Bool) (s : State) : (s.skipIf c).dt = s.dt := rfl
@[simp] theorem State.skipIf_st (c : Bool) (s : State) : (s.skipIf c).st = s.st := rfl
@[simp] theorem State.skipIf_fb (c : Bool) (s : State) : (s.skipIf c).fb = s.fb := rfl
@[simp] theorem State.skipIf_run (c : Bool) (s : State) : (s.skipIf c).run = s.run := rfl
@[simp] theorem State.skipIf_loaded (c : Bool) (s : State) : (s.skipIf c).loaded = s.loaded := rfl
@[simp] theorem State.skipIf_params (c : Bool) (s : State) : (s.skipIf c).params = s.params := rfl
@[simp] theorem State.skipIf_inputs (c : Bool) (s : State) : (s.skipIf c).inputs = s.inputs := rfl
@[simp] theorem State.skipIf_ticks (c : Bool) (s : State) : (s.skipIf c).ticks = s.ticks := rfl
@[simp] theorem State.skipIf_events (c : Bool) (s : State) : (s.skipIf c).events = s.events := rfl
@[simp] theorem State.skipIf_reg (c : Bool) (s : State) (z : RegIdx) : (s.skipIf c).reg z = s.reg z := rfl
@[simp] theorem State.skipIf_keys (c : Bool) (s : State) : (s.skipIf c).keys = s.keys := rfl
@[simp] theorem State.skipIf_randomByte (c : Bool) (s : State) : (s.skipIf c).randomByte = s.randomByte := rfl

/-! ### emit -/

@[simp] theorem State.emit_mem (e : Event) (s : State) : (s.emit e).mem = s.mem := rfl
@[simp] theorem State.emit_v (e : Event) (s : State) : (s.emit e).v = s.v := rfl
@[simp] theorem State.emit_i (e : Event) (s : State) : (s.emit e).i = s.i := rfl
@[simp] theorem State.emit_pc (e : Event) (s : State) : (s.emit e).pc = s.pc := rfl
@[simp] theorem State.emit_stack (e : Event) (s : State) : (s.emit e).stack = s.stack := rfl
@[simp] theorem State.emit_sp (e : Event) (s : State) : (s.emit e).sp = s.sp := rfl
@[simp] theorem State.emit_dt (e : Event) (s : State) : (s.emit e).dt = s.dt := rfl
@[simp] theorem State.emit_st (e : Event) (s : State) : (s.emit e).st = s.st := rfl
@[simp] theorem State.emit_fb (e : Event) (s : State) : (s.emit e).fb = s.fb := rfl
@[simp] theorem State.emit_run (e : Event) (s : State) : (s.emit e).run = s.run := rfl
@[simp] theorem State.emit_loaded (e : Event) (s : State) : (s.emit e).loaded = s.loaded := rfl
@[simp] theorem State.emit_params (e : Event) (s : State) : (s.emit e).params = s.params := rfl
@[simp] theorem State.emit_inputs (e : Event) (s : State) : (s.emit e).inputs = s.inputs := rfl
@[simp] theorem State.emit_ticks (e : Event) (s : State) : (s.emit e).ticks = s.ticks := rfl
@[simp] theorem State.emit_events (e : Event) (s : State) : (s.emit e).events = s.events ++ [e] := rfl
@[simp] theorem State.emit_reg (e : Event) (s : State) (z : RegIdx) : (s.emit e).reg z = s.reg z := rfl
@[simp] theorem State.emit_keys (e : Event) (s : State) : (s.emit e).keys = s.keys := rfl
@[simp] theorem State.emit_randomByte (e : Event) (s : State) : (s.emit e).randomByte = s.randomByte := rfl

/-! ### takeHalt -/

@[simp] theorem State.takeHalt_mem (h : HaltReason) (s : State) : (s.takeHalt h).mem = s.mem := rfl
@[simp] theorem State.takeHalt_v (h : HaltReason) (s : State) : (s.takeHalt h).v = s.v := rfl
@[simp] theorem State.takeHalt_i (h : HaltReason) (s : State) : (s.takeHalt h).i = s.i := rfl
@[simp] theorem State.takeHalt_pc (h : HaltReason) (s : State) : (s.takeHalt h).pc = s.pc := rfl
@[simp] theorem State.takeHalt_stack (h : HaltReason) (s : State) : (s.takeHalt h).stack = s.stack := rfl
@[simp] theorem State.takeHalt_sp (h : HaltReason) (s : State) : (s.takeHalt h).sp = s.sp := rfl
@[simp] theorem State.takeHalt_dt (h : HaltReason) (s : State) : (s.takeHalt h).dt = s.dt := rfl
@[simp] theorem State.takeHalt_st (h : HaltReason) (s : State) : (s.takeHalt h).st = s.st := rfl
@[simp] theorem State.takeHalt_fb (h : HaltReason) (s : State) : (s.takeHalt h).fb = s.fb := rfl
@[simp] theorem State.takeHalt_run (h : HaltReason) (s : State) : (s.takeHalt h).run = .halted h := rfl
@[simp] theorem State.takeHalt_loaded (h : HaltReason) (s : State) : (s.takeHalt h).loaded = s.loaded := rfl
@[simp] theorem State.takeHalt_params (h : HaltReason) (s : State) : (s.takeHalt h).params = s.params := rfl
@[simp] theorem State.takeHalt_inputs (h : HaltReason) (s : State) : (s.takeHalt h).inputs = s.inputs := rfl
@[simp] theorem State.takeHalt_ticks (h : HaltReason) (s : State) : (s.takeHalt h).ticks = s.ticks := rfl
@[simp] theorem State.takeHalt_events (h : HaltReason) (s : State) : (s.takeHalt h).events = s.events ++ [.halted h] := rfl
@[simp] theorem State.takeHalt_reg (h : HaltReason) (s : State) (z : RegIdx) : (s.takeHalt h).reg z = s.reg z := rfl
@[simp] theorem State.takeHalt_keys (h : HaltReason) (s : State) : (s.takeHalt h).keys = s.keys := rfl
@[simp] theorem State.takeHalt_randomByte (h : HaltReason) (s : State) : (s.takeHalt h).randomByte = s.randomByte := rfl

/-! ### beginTick -/

@[simp] theorem State.beginTick_mem (s : State) : s.beginTick.mem = s.mem := rfl
@[simp] theorem State.beginTick_v (s : State) : s.beginTick.v = s.v := rfl
@[simp] theorem State.beginTick_i (s : State) : s.beginTick.i = s.i := rfl
@[simp] theorem State.beginTick_pc (s : State) : s.beginTick.pc = s.pc := rfl
@[simp] theorem State.beginTick_stack (s : State) : s.beginTick.stack = s.stack := rfl
@[simp] theorem State.beginTick_sp (s : State) : s.beginTick.sp = s.sp := rfl
@[simp] theorem State.beginTick_dt (s : State) : s.beginTick.dt = s.dt := rfl
@[simp] theorem State.beginTick_st (s : State) : s.beginTick.st = s.st := rfl
@[simp] theorem State.beginTick_fb (s : State) : s.beginTick.fb = s.fb := rfl
@[simp] theorem State.beginTick_run (s : State) : s.beginTick.run = s.run := rfl
@[simp] theorem State.beginTick_loaded (s : State) : s.beginTick.loaded = s.loaded := rfl
@[simp] theorem State.beginTick_params (s : State) : s.beginTick.params = s.params := rfl
@[simp] theorem State.beginTick_inputs (s : State) : s.beginTick.inputs = s.inputs := rfl
@[simp] theorem State.beginTick_ticks (s : State) : s.beginTick.ticks = s.ticks := rfl
@[simp] theorem State.beginTick_events (s : State) : s.beginTick.events = [] := rfl
@[simp] theorem State.beginTick_reg (s : State) (z : RegIdx) : s.beginTick.reg z = s.reg z := rfl
@[simp] theorem State.beginTick_keys (s : State) : s.beginTick.keys = s.keys := rfl
@[simp] theorem State.beginTick_randomByte (s : State) : s.beginTick.randomByte = s.randomByte := rfl

/-! ### timerTick -/

@[simp] theorem State.timerTick_mem (s : State) : s.timerTick.mem = s.mem := rfl
@[simp] theorem State.timerTick_v (s : State) : s.timerTick.v = s.v := rfl
@[simp] theorem State.timerTick_i (s : State) : s.timerTick.i = s.i := rfl
@[simp] theorem State.timerTick_pc (s : State) : s.timerTick.pc = s.pc := rfl
@[simp] theorem State.timerTick_stack (s : State) : s.timerTick.stack = s.stack := rfl
@[simp] theorem State.timerTick_sp (s : State) : s.timerTick.sp = s.sp := rfl
@[simp] theorem State.timerTick_dt (s : State) : s.timerTick.dt = countDown s.dt := rfl
@[simp] theorem State.timerTick_st (s : State) : s.timerTick.st = countDown s.st := rfl
@[simp] theorem State.timerTick_fb (s : State) : s.timerTick.fb = s.fb := rfl
@[simp] theorem State.timerTick_run (s : State) : s.timerTick.run = s.run := rfl
@[simp] theorem State.timerTick_loaded (s : State) : s.timerTick.loaded = s.loaded := rfl
@[simp] theorem State.timerTick_params (s : State) : s.timerTick.params = s.params := rfl
@[simp] theorem State.timerTick_inputs (s : State) : s.timerTick.inputs = s.inputs := rfl
@[simp] theorem State.timerTick_ticks (s : State) : s.timerTick.ticks = s.ticks := rfl
@[simp] theorem State.timerTick_events (s : State) : s.timerTick.events = s.events ++ audioEvents s.st := rfl
@[simp] theorem State.timerTick_reg (s : State) (z : RegIdx) : s.timerTick.reg z = s.reg z := rfl
@[simp] theorem State.timerTick_keys (s : State) : s.timerTick.keys = s.keys := rfl
@[simp] theorem State.timerTick_randomByte (s : State) : s.timerTick.randomByte = s.randomByte := rfl

/-! ### nextInput -/

@[simp] theorem State.nextInput_mem (s : State) : s.nextInput.mem = s.mem := rfl
@[simp] theorem State.nextInput_v (s : State) : s.nextInput.v = s.v := rfl
@[simp] theorem State.nextInput_i (s : State) : s.nextInput.i = s.i := rfl
@[simp] theorem State.nextInput_pc (s : State) : s.nextInput.pc = s.pc := rfl
@[simp] theorem State.nextInput_stack (s : State) : s.nextInput.stack = s.stack := rfl
@[simp] theorem State.nextInput_sp (s : State) : s.nextInput.sp = s.sp := rfl
@[simp] theorem State.nextInput_dt (s : State) : s.nextInput.dt = s.dt := rfl
@[simp] theorem State.nextInput_st (s : State) : s.nextInput.st = s.st := rfl
@[simp] theorem State.nextInput_fb (s : State) : s.nextInput.fb = s.fb := rfl
@[simp] theorem State.nextInput_run (s : State) : s.nextInput.run = s.run := rfl
@[simp] theorem State.nextInput_loaded (s : State) : s.nextInput.loaded = s.loaded := rfl
@[simp] theorem State.nextInput_params (s : State) : s.nextInput.params = s.params := rfl
@[simp] theorem State.nextInput_inputs (s : State) : s.nextInput.inputs = s.inputs.tail := rfl
@[simp] theorem State.nextInput_ticks (s : State) : s.nextInput.ticks = s.ticks + 1 := rfl
@[simp] theorem State.nextInput_events (s : State) : s.nextInput.events = s.events := rfl
@[simp] theorem State.nextInput_reg (s : State) (z : RegIdx) : s.nextInput.reg z = s.reg z := rfl

/-! ### Reading back a register -/

theorem State.reg_setReg (x z : RegIdx) (b : Byte) (s : State) :
    (s.setReg x b).reg z = if x = z then b else s.reg z := by
  simp [State.setReg, State.reg, Vector.getElem_set, Fin.ext_iff]

@[simp] theorem State.reg_setReg_self (x : RegIdx) (b : Byte) (s : State) : (s.setReg x b).reg x = b := by
  simp [State.reg_setReg]

theorem State.reg_setReg_other {x z : RegIdx} (b : Byte) (s : State) (h : x ≠ z) : (s.setReg x b).reg z = s.reg z := by
  simp [State.reg_setReg, h]

/-! ### writeBack: the registers after it, and nothing else -/

/-- What WriteBack leaves in a register: the flag in VF, the result in V[x], and for x = F the one written last (R95). -/
theorem State.reg_writeBack (x z : RegIdx) (r : Byte) (f : Bool) (s : State) :
    (s.writeBack x r f).reg z =
      if s.params.vfWriteOrder = .flagLast then (if vf = z then flagByte f else if x = z then r else s.reg z)
      else (if x = z then r else if vf = z then flagByte f else s.reg z) := by
  unfold State.writeBack
  cases s.params.vfWriteOrder <;> simp [State.reg_setReg]

/-- WriteBack touches the general registers only. -/
theorem State.writeBack_eq (x : RegIdx) (r : Byte) (f : Bool) (s : State) :
    s.writeBack x r f = { s with v := (s.writeBack x r f).v } := by
  unfold State.writeBack
  cases s.params.vfWriteOrder <;> rfl

@[simp] theorem State.writeBack_mem (x : RegIdx) (r : Byte) (f : Bool) (s : State) :
    (s.writeBack x r f).mem = s.mem := by rw [State.writeBack_eq]
@[simp] theorem State.writeBack_i (x : RegIdx) (r : Byte) (f : Bool) (s : State) :
    (s.writeBack x r f).i = s.i := by rw [State.writeBack_eq]
@[simp] theorem State.writeBack_pc (x : RegIdx) (r : Byte) (f : Bool) (s : State) :
    (s.writeBack x r f).pc = s.pc := by rw [State.writeBack_eq]
@[simp] theorem State.writeBack_stack (x : RegIdx) (r : Byte) (f : Bool) (s : State) :
    (s.writeBack x r f).stack = s.stack := by rw [State.writeBack_eq]
@[simp] theorem State.writeBack_sp (x : RegIdx) (r : Byte) (f : Bool) (s : State) :
    (s.writeBack x r f).sp = s.sp := by rw [State.writeBack_eq]
@[simp] theorem State.writeBack_dt (x : RegIdx) (r : Byte) (f : Bool) (s : State) :
    (s.writeBack x r f).dt = s.dt := by rw [State.writeBack_eq]
@[simp] theorem State.writeBack_st (x : RegIdx) (r : Byte) (f : Bool) (s : State) :
    (s.writeBack x r f).st = s.st := by rw [State.writeBack_eq]
@[simp] theorem State.writeBack_fb (x : RegIdx) (r : Byte) (f : Bool) (s : State) :
    (s.writeBack x r f).fb = s.fb := by rw [State.writeBack_eq]
@[simp] theorem State.writeBack_run (x : RegIdx) (r : Byte) (f : Bool) (s : State) :
    (s.writeBack x r f).run = s.run := by rw [State.writeBack_eq]
@[simp] theorem State.writeBack_loaded (x : RegIdx) (r : Byte) (f : Bool) (s : State) :
    (s.writeBack x r f).loaded = s.loaded := by rw [State.writeBack_eq]
@[simp] theorem State.writeBack_params (x : RegIdx) (r : Byte) (f : Bool) (s : State) :
    (s.writeBack x r f).params = s.params := by rw [State.writeBack_eq]
@[simp] theorem State.writeBack_inputs (x : RegIdx) (r : Byte) (f : Bool) (s : State) :
    (s.writeBack x r f).inputs = s.inputs := by rw [State.writeBack_eq]
@[simp] theorem State.writeBack_ticks (x : RegIdx) (r : Byte) (f : Bool) (s : State) :
    (s.writeBack x r f).ticks = s.ticks := by rw [State.writeBack_eq]
@[simp] theorem State.writeBack_events (x : RegIdx) (r : Byte) (f : Bool) (s : State) :
    (s.writeBack x r f).events = s.events := by rw [State.writeBack_eq]

end Sys2Proof.Machine
end

