-- ==== Sys2Proof/Laws/Ops.lean ====
section
/-!
SUPPORT. For each shared operation, once, everything it can do.
-/

namespace Sys2Proof.Machine

/-- Push: with a free slot it fills the slot at SP; with none it reports StackOverflow. -/
theorem State.push_cases (a : Word) (s : State) :
    (∃ h : s.sp.val < 16, s.push a =
        .ok { s with stack := s.stack.set s.sp.val a h, sp := ⟨s.sp.val + 1, by omega⟩ }) ∨
    (s.sp.val = 16 ∧ s.push a = .error .stackOverflow) := by
  unfold State.push
  by_cases h : s.sp.val < 16
  · exact .inl ⟨h, by simp [h]⟩
  · exact .inr ⟨by omega, by simp [h]⟩

/-- Pop: with an occupied slot it gives the top one; with none it reports StackUnderflow. -/
theorem State.pop_cases (s : State) :
    (∃ h : 0 < s.sp.val, s.pop =
        .ok (s.stack[s.sp.val - 1]'(by omega), { s with sp := ⟨s.sp.val - 1, by omega⟩ })) ∨
    (s.sp.val = 0 ∧ s.pop = .error .stackUnderflow) := by
  unfold State.pop
  by_cases h : 0 < s.sp.val
  · exact .inl ⟨h, by simp [h]⟩
  · exact .inr ⟨by omega, by simp [h]⟩

/-- The range check of one access more: the earlier addresses first, then the new one. -/
theorem accessHalt_succ (base n : Nat) :
    accessHalt base (n + 1) = (accessHalt base n).or (byteAccessHalt (base + n)) := by
  simp [accessHalt, List.range_succ, List.findSome?_append, List.findSome?_singleton]

/-- The range check passes exactly when the access ends inside the memory. -/
theorem accessHalt_none_of (base n : Nat) (h : n = 0 ∨ base + n ≤ Config.memSize) : accessHalt base n = none := by
  induction n with
  | zero => rfl
  | succ n ih =>
    have hb : ¬ (base + n ≥ 4096) := by simp only [Config.memSize] at h; omega
    rw [accessHalt_succ, ih (by omega), Option.none_or]
    simp only [byteAccessHalt, hb, if_false]

/-- The range check reports the lowest address of the range that does not exist (R117). -/
theorem accessHalt_some_of (base n : Nat) (hn : 0 < n) (h : Config.memSize < base + n) :
    accessHalt base n = some (.memoryOutOfRange (max base Config.memSize)) := by
  induction n with
  | zero => omega
  | succ n ih =>
    rw [accessHalt_succ]
    by_cases hp : 0 < n ∧ Config.memSize < base + n
    · rw [ih hp.1 hp.2]; rfl
    · rw [accessHalt_none_of base n (by omega)]
      have hb : base + n ≥ Config.memSize := by omega
      have hmax : base + n = max base Config.memSize := by omega
      rw [Option.none_or, byteAccessHalt, if_pos hb, hmax]

/-- FetchChecked: the big-endian word at PC, or the halt of a PC outside the memory. -/
theorem State.fetch_cases (s : State) :
    (s.pc.toNat < 4095 ∧ s.fetch = .ok (s.mem.opcodeAt s.pc.toNat)) ∨
    (s.pc.toNat = 4095 ∧ s.fetch = .error (.fetchOutOfRange s.pc)) ∨
    (4096 ≤ s.pc.toNat ∧ s.fetch = .error (.pcOutOfRange s.pc)) := by
  unfold State.fetch
  simp only [Config.memSize]
  by_cases h1 : s.pc.toNat ≥ 4096
  · exact .inr (.inr ⟨h1, by simp [h1]⟩)
  · by_cases h2 : s.pc.toNat = 4095
    · exact .inr (.inl ⟨h2, by simp [h2]⟩)
    · exact .inl ⟨by omega, by simp [h1, h2]⟩

/-- The inputs of a tick: both from the queued input, or both the free values of the tick's number. -/
theorem State.tickInputs_cases (s : State) :
    (∃ a rest, s.inputs = a :: rest ∧ s.keys = a.keys ∧ s.randomByte = a.rnd) ∨
    (s.inputs = [] ∧ s.keys = Config.freeKeys s.ticks ∧ s.randomByte = Config.freeRandom s.ticks) := by
  unfold State.keys State.randomByte
  cases h : s.inputs with
  | nil => exact .inr ⟨rfl, rfl, rfl⟩
  | cons a rest => exact .inl ⟨a, rest, rfl, rfl, rfl⟩

end Sys2Proof.Machine
end

