-- ==== Sys2Proof/Laws/Exec.lean ====
section
/-!
SUPPORT. What an instruction can answer, said once: it takes a halt, or it goes on and leaves the run state, the loaded
mark, the parameters and the inputs alone; and, for the instructions with a check, what it then is.
-/

namespace Sys2Proof.Machine

/-- The parts of the state that no instruction writes when it goes on. -/
structure State.SameSetup (s t : State) : Prop where
  run : t.run = s.run
  loaded : t.loaded = s.loaded
  params : t.params = s.params
  inputs : t.inputs = s.inputs
  ticks : t.ticks = s.ticks

/-- What an instruction is when it goes on: the answer of each one that has a check to pass first, the check passed; the
others' answer is their meaning as it stands. -/
def GoesOn (i : Instr) (s t : State) : Prop :=
  match i with
  | .ret => ∃ h : 0 < s.sp.val,
      t = { s with sp := ⟨s.sp.val - 1, by omega⟩, pc := s.stack[s.sp.val - 1]'(by omega) + 2 }
  | .call nnn => ∃ h : s.sp.val < 16,
      t = { s with stack := s.stack.set s.sp.val s.pc h, sp := ⟨s.sp.val + 1, by omega⟩, pc := zext16 nnn }
  | .ldB x => accessHalt s.i.toNat 3 = none ∧ t = (s.storeBytes s.i.toNat (decimalDigits (s.reg x))).advance
  | .storeRegs x => accessHalt s.i.toNat (x.val + 1) = none ∧
      t = ((s.storeBytes s.i.toNat (s.registerBlock x)).setIndex (s.indexAfterBlock x)).advance
  | .loadRegs x => accessHalt s.i.toNat (x.val + 1) = none ∧
      t = ((s.setRegs (s.loadedRegisters x s.i.toNat)).setIndex (s.indexAfterBlock x)).advance
  | .drw x y n => accessHalt s.i.toNat n = none ∧ ∃ ts, edgeTargets s.params.drawEdgeMode
      (spriteTargets (s.reg x).toNat (s.reg y).toNat (s.loadBytes s.i.toNat n)) = .ok ts ∧ t = s.drawTargets ts
  | .skp x => (s.reg x).toNat ≤ 15 ∧ t = s.skipIf (s.keys.getLsbD (s.reg x).toNat)
  | .sknp x => (s.reg x).toNat ≤ 15 ∧ t = s.skipIf (!s.keys.getLsbD (s.reg x).toNat)
  | i => exec i s = .next t

/-- An instruction takes a halt or goes on; it never answers a fault or a refusal. -/
theorem exec_cases (i : Instr) (s : State) :
    (∃ r, exec i s = .next (s.takeHalt r)) ∨ (∃ t, exec i s = .next t ∧ GoesOn i s t) := by
  cases i with
  | ret =>
    rcases s.pop_cases with ⟨h, he⟩ | ⟨h, he⟩ <;> simp only [exec, execRet, he]
    · exact .inr ⟨_, rfl, h, rfl⟩
    · exact .inl ⟨_, rfl⟩
  | call nnn =>
    rcases s.push_cases s.pc with ⟨h, he⟩ | ⟨h, he⟩ <;> simp only [exec, execCall, he]
    · exact .inr ⟨_, rfl, h, rfl⟩
    · exact .inl ⟨_, rfl⟩
  | ldB x =>
    simp only [exec, execLdB, GoesOn]
    cases accessHalt s.i.toNat 3 with
    | none => exact .inr ⟨_, rfl, rfl, rfl⟩
    | some r => exact .inl ⟨r, rfl⟩
  | storeRegs x =>
    simp only [exec, execStoreRegs, GoesOn]
    cases accessHalt s.i.toNat (x.val + 1) with
    | none => exact .inr ⟨_, rfl, rfl, rfl⟩
    | some r => exact .inl ⟨r, rfl⟩
  | loadRegs x =>
    simp only [exec, execLoadRegs, GoesOn]
    cases accessHalt s.i.toNat (x.val + 1) with
    | none => exact .inr ⟨_, rfl, rfl, rfl⟩
    | some r => exact .inl ⟨r, rfl⟩
  | drw x y n =>
    simp only [exec, execDrw, GoesOn]
    cases accessHalt s.i.toNat n with
    | some r => exact .inl ⟨r, rfl⟩
    | none =>
      cases edgeTargets s.params.drawEdgeMode
          (spriteTargets (s.reg x).toNat (s.reg y).toNat (s.loadBytes s.i.toNat n)) with
      | error r => exact .inl ⟨r, rfl⟩
      | ok ts => exact .inr ⟨_, rfl, rfl, ts, rfl, rfl⟩
  | skp x =>
    simp only [exec, execSkp, GoesOn]
    split
    · exact .inl ⟨_, rfl⟩
    · exact .inr ⟨_, rfl, by omega, rfl⟩
  | sknp x =>
    simp only [exec, execSknp, GoesOn]
    split
    · exact .inl ⟨_, rfl⟩
    · exact .inr ⟨_, rfl, by omega, rfl⟩
  | _ => exact .inr ⟨_, rfl, rfl⟩

/-- The same, from the answer. -/
theorem exec_next_cases {i : Instr} {s t : State} (h : exec i s = .next t) :
    (∃ r, t = s.takeHalt r) ∨ GoesOn i s t := by
  rcases exec_cases i s with ⟨r, he⟩ | ⟨u, he, hg⟩ <;> rw [he] at h <;> cases h
  · exact .inl ⟨r, rfl⟩
  · exact .inr hg

/-- An instruction that goes on leaves the run state, the loaded mark, the parameters and the inputs alone. -/
theorem GoesOn.sameSetup {i : Instr} {s t : State} (h : GoesOn i s t) : s.SameSetup t := by
  cases i with
  | ret | call _ => obtain ⟨_, rfl⟩ := h; exact ⟨rfl, rfl, rfl, rfl, rfl⟩
  | ldB _ | storeRegs _ | loadRegs _ | skp _ | sknp _ => obtain ⟨_, rfl⟩ := h; constructor <;> simp
  | drw _ _ _ => obtain ⟨_, _, _, rfl⟩ := h; exact ⟨rfl, rfl, rfl, rfl, rfl⟩
  | addReg _ _ | subReg _ _ | shrReg _ _ | subnReg _ _ | shlReg _ _ => cases h; constructor <;> simp
  | _ => cases h; exact ⟨rfl, rfl, rfl, rfl, rfl⟩

end Sys2Proof.Machine
end

