-- ==== Sys2Proof/Laws/PerInstr.lean ====
section
/-!
SUPPORT. Facts about every instruction as syntax, one lemma per constructor.
-/

namespace Sys2Proof.Laws

/-- Format NNN under the mask of its family. -/
theorem encodeNNN_family (t : BitVec 4) (a : Addr12) : encodeNNN t a &&& 0xF000#16 = nibbleAt 12 t := by
  apply BitVec.eq_of_getLsbD_eq
  intro i hi
  interval_cases i <;> simp [encodeNNN, nibbleAt]

/-- Format XKK under the mask of its family. -/
theorem encodeXKK_family (t : BitVec 4) (x : RegIdx) (k : Byte) : encodeXKK t x k &&& 0xF000#16 = nibbleAt 12 t := by
  apply BitVec.eq_of_getLsbD_eq
  intro i hi
  interval_cases i <;> simp [encodeXKK, nibbleAt]

/-- Format X under the mask of its family and its low byte. -/
theorem encodeXKK_selector (t : BitVec 4) (x : RegIdx) (k : Byte) :
    encodeXKK t x k &&& 0xF0FF#16 = nibbleAt 12 t ||| k.setWidth 16 := by
  apply BitVec.eq_of_getLsbD_eq
  intro i hi
  interval_cases i <;> simp [encodeXKK, nibbleAt]

/-- Format XY under the mask of its family. -/
theorem encodeXYN_family (t : BitVec 4) (x y : RegIdx) (n : BitVec 4) :
    encodeXYN t x y n &&& 0xF000#16 = nibbleAt 12 t := by
  apply BitVec.eq_of_getLsbD_eq
  intro i hi
  interval_cases i <;> simp [encodeXYN, nibbleAt]

/-- Format XY under the mask of its family and its low nibble. -/
theorem encodeXYN_selector (t : BitVec 4) (x y : RegIdx) (n : BitVec 4) :
    encodeXYN t x y n &&& 0xF00F#16 = nibbleAt 12 t ||| nibbleAt 0 n := by
  apply BitVec.eq_of_getLsbD_eq
  intro i hi
  interval_cases i <;> simp [encodeXYN, nibbleAt]

namespace EncodingFitsRow

/-- The instruction's word has the table's pattern under the table's mask, under either ZERO_FAMILY_DECODE. -/
def Statement (i : Instr) : Prop :=
  i.WellFormed → ∀ z : Config.ZeroFamilyDecode, encode i &&& opcodeMask z i = opcodePattern z i

theorem cls : Statement .cls := by rintro - (_ | _) <;> rfl
theorem ret : Statement .ret := by rintro - (_ | _) <;> rfl
theorem jp (nnn : Addr12) : Statement (.jp nnn) := fun _ _ => encodeNNN_family 0x1 nnn
theorem call (nnn : Addr12) : Statement (.call nnn) := fun _ _ => encodeNNN_family 0x2 nnn
theorem seByte (x : RegIdx) (kk : Byte) : Statement (.seByte x kk) := fun _ _ => encodeXKK_family 0x3 x kk
theorem sneByte (x : RegIdx) (kk : Byte) : Statement (.sneByte x kk) := fun _ _ => encodeXKK_family 0x4 x kk
theorem seReg (x y : RegIdx) : Statement (.seReg x y) := fun _ _ => encodeXYN_family 0x5 x y 0x0
theorem ldByte (x : RegIdx) (kk : Byte) : Statement (.ldByte x kk) := fun _ _ => encodeXKK_family 0x6 x kk
theorem addByte (x : RegIdx) (kk : Byte) : Statement (.addByte x kk) := fun _ _ => encodeXKK_family 0x7 x kk
theorem ldReg (x y : RegIdx) : Statement (.ldReg x y) := fun _ _ => encodeXYN_selector 0x8 x y 0x0
theorem orReg (x y : RegIdx) : Statement (.orReg x y) := fun _ _ => encodeXYN_selector 0x8 x y 0x1
theorem andReg (x y : RegIdx) : Statement (.andReg x y) := fun _ _ => encodeXYN_selector 0x8 x y 0x2
theorem xorReg (x y : RegIdx) : Statement (.xorReg x y) := fun _ _ => encodeXYN_selector 0x8 x y 0x3
theorem addReg (x y : RegIdx) : Statement (.addReg x y) := fun _ _ => encodeXYN_selector 0x8 x y 0x4
theorem subReg (x y : RegIdx) : Statement (.subReg x y) := fun _ _ => encodeXYN_selector 0x8 x y 0x5
theorem shrReg (x y : RegIdx) : Statement (.shrReg x y) := fun _ _ => encodeXYN_selector 0x8 x y 0x6
theorem subnReg (x y : RegIdx) : Statement (.subnReg x y) := fun _ _ => encodeXYN_selector 0x8 x y 0x7
theorem shlReg (x y : RegIdx) : Statement (.shlReg x y) := fun _ _ => encodeXYN_selector 0x8 x y 0xE
theorem sneReg (x y : RegIdx) : Statement (.sneReg x y) := fun _ _ => encodeXYN_family 0x9 x y 0x0
theorem ldI (nnn : Addr12) : Statement (.ldI nnn) := fun _ _ => encodeNNN_family 0xA nnn
theorem jpV0 (nnn : Addr12) : Statement (.jpV0 nnn) := fun _ _ => encodeNNN_family 0xB nnn
theorem rnd (x : RegIdx) (kk : Byte) : Statement (.rnd x kk) := fun _ _ => encodeXKK_family 0xC x kk
theorem drw (x y : RegIdx) (n : Nat) : Statement (.drw x y n) := fun _ _ => encodeXYN_family 0xD x y (BitVec.ofNat 4 n)
theorem skp (x : RegIdx) : Statement (.skp x) := fun _ _ => encodeXKK_selector 0xE x 0x9E
theorem sknp (x : RegIdx) : Statement (.sknp x) := fun _ _ => encodeXKK_selector 0xE x 0xA1
theorem ldVxDt (x : RegIdx) : Statement (.ldVxDt x) := fun _ _ => encodeXKK_selector 0xF x 0x07
theorem ldVxK (x : RegIdx) : Statement (.ldVxK x) := fun _ _ => encodeXKK_selector 0xF x 0x0A
theorem ldDtVx (x : RegIdx) : Statement (.ldDtVx x) := fun _ _ => encodeXKK_selector 0xF x 0x15
theorem ldStVx (x : RegIdx) : Statement (.ldStVx x) := fun _ _ => encodeXKK_selector 0xF x 0x18
theorem addI (x : RegIdx) : Statement (.addI x) := fun _ _ => encodeXKK_selector 0xF x 0x1E
theorem ldF (x : RegIdx) : Statement (.ldF x) := fun _ _ => encodeXKK_selector 0xF x 0x29
theorem ldB (x : RegIdx) : Statement (.ldB x) := fun _ _ => encodeXKK_selector 0xF x 0x33
theorem storeRegs (x : RegIdx) : Statement (.storeRegs x) := fun _ _ => encodeXKK_selector 0xF x 0x55
theorem loadRegs (x : RegIdx) : Statement (.loadRegs x) := fun _ _ => encodeXKK_selector 0xF x 0x65

end EncodingFitsRow

end Sys2Proof.Laws
end

