-- ==== Sys2Proof/Laws/Tick.lean ====
section
/-!
SUPPORT. What a step can do, said once: from a RUNNING, loaded block it halts in the fetch, halts in the instruction, or
runs the instruction and then the timer update.
-/

namespace Sys2Proof.Machine

/-- A timer counts down and stops at 0 (R142). -/
theorem toNat_countDown (b : Byte) : (countDown b).toNat = b.toNat - 1 := by
  unfold countDown
  have hb := b.isLt
  split
  · rename_i h
    rw [h]
    rfl
  · rename_i h
    have h0 : b.toNat ≠ 0 := fun e => h (BitVec.eq_of_toNat_eq (by simpa using e))
    simp
    omega

/-- A halted step ends its tick as it is (R143). -/
theorem State.endTick_takeHalt (r : HaltReason) (s : State) : (s.takeHalt r).endTick = s.takeHalt r := rfl

/-- A step that goes on ends its tick with the timer update. -/
theorem State.endTick_running {s : State} (h : s.run = .running) : s.endTick = s.timerTick.nextInput := by
  unfold State.endTick
  rw [h]

/-- Fetch and decode: an instruction only from a PC inside the memory, and then the one the word there decodes to. -/
theorem State.fetchInstr_ok {s : State} {i : Instr} (h : s.fetchInstr = .ok i) :
    s.pc.toNat < 4095 ∧ decode s.params.zeroFamilyDecode (s.mem.opcodeAt s.pc.toNat) = .ok i := by
  rcases s.fetch_cases with ⟨hp, hf⟩ | ⟨_, hf⟩ | ⟨_, hf⟩ <;> simp only [State.fetchInstr, hf] at h
  · refine ⟨hp, ?_⟩
    split at h
    · cases h
    · cases h
      assumption
  · cases h
  · cases h

/-- What a step that answers a next state has done. -/
theorem step_next_cases {s t : State} (h : step s = .next t) :
    s.run = .running ∧ s.loaded = true ∧
    ((∃ r, t = s.beginTick.takeHalt r) ∨
     (∃ i u, s.beginTick.fetchInstr = .ok i ∧ exec i s.beginTick = .next u ∧ GoesOn i s.beginTick u ∧
       t = u.timerTick.nextInput)) := by
  unfold step at h
  split at h
  · cases h
  · rename_i hr
    split at h
    · cases h
    · rename_i hl
      refine ⟨hr, hl, ?_⟩
      split at h
      · rename_i r _
        cases h
        exact .inl ⟨r, rfl⟩
      · rename_i i hi
        rcases exec_cases i s.beginTick with ⟨r, he⟩ | ⟨u, he, hg⟩ <;> rw [he] at h <;>
          simp only [finishTick] at h <;> cases h
        · exact .inl ⟨r, rfl⟩
        · exact .inr ⟨i, u, hi, he, hg, State.endTick_running (by rw [hg.sameSetup.run]; exact hr)⟩

end Sys2Proof.Machine
end

