-- ==== Sys2Proof/Tests/Slice0.lean ====
section
/-!
SUPPORT. The model's own tests. Expected results are the vectors V-… and examples of spec/95_test_vectors.md and of the
rules themselves, never the model's own answers. The last part holds a witness for the hypotheses of every statement.
-/

namespace Sys2Proof.Machine.Tests

/-! ## WellFormed refuses an ill-formed term, for its one check -/

theorem test_wf_refuses_sixteen_rows : (Instr.drw 0 0 16).wellFormed = false := by decide
theorem test_wf_takes_fifteen_rows : (Instr.drw 0 0 15).wellFormed = true := by decide

/-! ## Decoding, by words written out from the encodings of 30_encoding.md R79 -/

theorem test_decode_cls : decode .exact 0b0000000011100000 = .ok .cls := by decide
theorem test_decode_ret : decode .exact 0b0000000011101110 = .ok .ret := by decide
theorem test_decode_jp : decode .lowNibble 0b0001101010111100 = .ok (.jp 0xABC) := by decide
theorem test_decode_call : decode .lowNibble 0b0010001100000000 = .ok (.call 0x300) := by decide
theorem test_decode_se_byte : decode .lowNibble 0b0011010100101010 = .ok (.seByte 5 0x2A) := by decide
theorem test_decode_sne_byte : decode .lowNibble 0b0100010100101011 = .ok (.sneByte 5 0x2B) := by decide
theorem test_decode_se_reg : decode .lowNibble 0b0101000100101111 = .ok (.seReg 1 2) := by decide
theorem test_decode_ld_byte : decode .lowNibble 0b0110101000000010 = .ok (.ldByte 0xA 0x02) := by decide
theorem test_decode_add_byte : decode .lowNibble 0b0111001100000011 = .ok (.addByte 3 0x03) := by decide
theorem test_decode_ld_reg : decode .lowNibble 0b1000000100100000 = .ok (.ldReg 1 2) := by decide
theorem test_decode_or : decode .lowNibble 0b1000000100100001 = .ok (.orReg 1 2) := by decide
theorem test_decode_and : decode .lowNibble 0b1000000100100010 = .ok (.andReg 1 2) := by decide
theorem test_decode_xor : decode .lowNibble 0b1000000100100011 = .ok (.xorReg 1 2) := by decide
theorem test_decode_add : decode .lowNibble 0b1000000100100100 = .ok (.addReg 1 2) := by decide
theorem test_decode_sub : decode .lowNibble 0b1000000100100101 = .ok (.subReg 1 2) := by decide
theorem test_decode_shr : decode .lowNibble 0b1000000100100110 = .ok (.shrReg 1 2) := by decide
theorem test_decode_subn : decode .lowNibble 0b1000000100100111 = .ok (.subnReg 1 2) := by decide
theorem test_decode_shl : decode .lowNibble 0b1000000100101110 = .ok (.shlReg 1 2) := by decide
theorem test_decode_sne_reg : decode .lowNibble 0b1001000100100000 = .ok (.sneReg 1 2) := by decide
theorem test_decode_ld_i : decode .lowNibble 0b1010001000000000 = .ok (.ldI 0x200) := by decide
theorem test_decode_jp_v0 : decode .lowNibble 0b1011111111110000 = .ok (.jpV0 0xFF0) := by decide
theorem test_decode_rnd : decode .lowNibble 0b1100001100001111 = .ok (.rnd 3 0x0F) := by decide
theorem test_decode_drw : decode .lowNibble 0b1101000100100101 = .ok (.drw 1 2 5) := by decide
theorem test_decode_skp : decode .lowNibble 0b1110000110011110 = .ok (.skp 1) := by decide
theorem test_decode_sknp : decode .lowNibble 0b1110000110100001 = .ok (.sknp 1) := by decide
theorem test_decode_ld_dt : decode .lowNibble 0b1111000100000111 = .ok (.ldVxDt 1) := by decide
theorem test_decode_ld_k : decode .lowNibble 0b1111001000001010 = .ok (.ldVxK 2) := by decide
theorem test_decode_set_dt : decode .lowNibble 0b1111000000010101 = .ok (.ldDtVx 0) := by decide
theorem test_decode_set_st : decode .lowNibble 0b1111000000011000 = .ok (.ldStVx 0) := by decide
theorem test_decode_add_i : decode .lowNibble 0b1111001000011110 = .ok (.addI 2) := by decide
theorem test_decode_ld_f : decode .lowNibble 0b1111010000101001 = .ok (.ldF 4) := by decide
theorem test_decode_ld_b : decode .lowNibble 0b1111000000110011 = .ok (.ldB 0) := by decide
theorem test_decode_store : decode .lowNibble 0b1111001001010101 = .ok (.storeRegs 2) := by decide
theorem test_decode_load : decode .lowNibble 0b1111001001100101 = .ok (.loadRegs 2) := by decide

/-- V-E3, V-E5: 0x0120 is CLS under LOW_NIBBLE only; 0x0123 is unknown under both. -/
theorem test_decode_family0 : decode .lowNibble 0x0120 = .ok .cls ∧
    decode .exact 0x0120 = .error (.unknownOpcode 0x0120) ∧
    decode .lowNibble 0x0123 = .error (.unknownOpcode 0x0123) ∧
    decode .exact 0x0123 = .error (.unknownOpcode 0x0123) := by decide

/-- V-E6, V-E7, V-E8. -/
theorem test_decode_unknown : decode .lowNibble 0x812C = .error (.unknownOpcode 0x812C) ∧
    decode .lowNibble 0xE0A0 = .error (.unknownOpcode 0xE0A0) ∧
    decode .lowNibble 0xF020 = .error (.unknownOpcode 0xF020) := by decide

/-- R70: one instruction takes exactly two bytes. -/
theorem test_decode_bytes : decodeBytes .lowNibble [0x6A, 0x02, 0xFF] = .ok (.ldByte 0xA 0x02, [0xFF]) ∧
    decodeBytes .lowNibble [0x6A] = .error (.truncated 1) := by decide

theorem test_decode_table_word : decodeTableWord 16 0xF265 = some (.loadRegs 2) ∧ decodeTableWord 16 0x0000 = some .cls := by
  decide

/-! ## One step on a small state -/

/-- A loaded block at 0x200 with the given registers, and one queued input. -/
def base (regs : List (RegIdx × Byte)) (keys : BitVec 16 := 0) (rnd : Byte := 0) : State :=
  regs.foldl (fun s p => s.setReg p.1 p.2) { State.reset with loaded := true, inputs := [⟨keys, rnd⟩] }

/-- The next state of one tick of the word at PC. -/
def tick (s : State) (w : Word) : Option State :=
  match step (s.placeWord w) with
  | .next t => some t
  | _ => none

/-- VF and one register after one tick. -/
def flagAnd (x : RegIdx) (t : State) : Byte × Byte := (t.reg x, t.reg 15)

/-- V-C1. -/
theorem test_cls : (tick { base [(15, 0x5A)] with fb := Framebuffer.blank.toggle 3 4 } 0x00E0).map
    (fun t => (t.fb, t.events, t.pc, t.reg 15)) =
    some (Framebuffer.blank, [.displayClear], 0x202, 0x5A) := by decide

/-- R85's example: SP = 1, stack[0] = 0x204 gives PC = 0x206. -/
theorem test_ret : (tick { base [] with sp := 1, stack := State.reset.stack.set 0 0x204 } 0x00EE).map
    (fun t => (t.pc, t.sp, t.stack[0])) = some (0x206, 0, 0x204) := by decide

/-- V-C3. -/
theorem test_ret_underflow : (tick (base []) 0x00EE).map (fun t => (t.run, t.pc, t.events)) =
    some (.halted .stackUnderflow, 0x200, [.halted .stackUnderflow]) := by decide

/-- V-C5. -/
theorem test_jp : (tick (base []) 0x1ABC).map State.pc = some 0xABC := by decide

/-- V-C2. -/
theorem test_call : (tick (base []) 0x2300).map (fun t => (t.pc, t.sp, t.stack[0])) = some (0x300, 1, 0x200) := by decide

/-- V-C4. -/
theorem test_call_overflow : (tick { base [] with sp := 16 } 0x2400).map (fun t => (t.run, t.pc, t.sp)) =
    some (.halted .stackOverflow, 0x200, 16) := by decide

/-- V-C7. -/
theorem test_jp_v0 : (tick (base [(0, 0xFF)]) 0xBFFF).map State.pc = some 0x10FE := by decide

/-- V-C9, V-C10. -/
theorem test_skip_byte : (tick (base [(3, 0x42)]) 0x3342).map State.pc = some 0x204 ∧
    (tick (base [(3, 0x42)]) 0x3343).map State.pc = some 0x202 ∧
    (tick (base [(3, 0x42)]) 0x4342).map State.pc = some 0x202 ∧
    (tick (base [(3, 0x42)]) 0x4343).map State.pc = some 0x204 := by decide

/-- V-C11. -/
theorem test_skip_reg : (tick (base [(1, 0x10), (2, 0x11)]) 0x5120).map State.pc = some 0x202 ∧
    (tick (base [(1, 0x10), (2, 0x11)]) 0x912F).map State.pc = some 0x204 := by decide

/-- V-A1. -/
theorem test_ld_byte : (tick (base []) 0x6A02).map (fun t => (t.reg 0xA, t.pc)) = some (0x02, 0x202) := by decide

/-- V-A2. -/
theorem test_add_byte : (tick (base [(1, 0xFF), (15, 0x55)]) 0x7101).map (flagAnd 1) = some (0x00, 0x55) := by decide

/-- V-A3. -/
theorem test_ld_reg : (tick (base [(1, 0x12), (2, 0x33)]) 0x8120).map (fun t => t.reg 1) = some 0x33 := by decide

/-- V-A4. -/
theorem test_logic : (tick (base [(1, 0xF0), (2, 0x3C), (15, 0x77)]) 0x8121).map (flagAnd 1) = some (0xFC, 0x77) ∧
    (tick (base [(1, 0xF0), (2, 0x3C), (15, 0x77)]) 0x8122).map (flagAnd 1) = some (0x30, 0x77) ∧
    (tick (base [(1, 0xF0), (2, 0x3C), (15, 0x77)]) 0x8123).map (flagAnd 1) = some (0xCC, 0x77) := by decide

/-- V-A6. -/
theorem test_add : (tick (base [(1, 0xC8), (2, 0x64)]) 0x8124).map (flagAnd 1) = some (0x2C, 1) ∧
    (tick (base [(1, 0xFF), (2, 0x00)]) 0x8124).map (flagAnd 1) = some (0xFF, 0) := by decide

/-- V-A8: both write orders. -/
theorem test_add_into_vf : (tick (base [(15, 0x10), (1, 0x20)]) 0x8F14).map (fun t => t.reg 15) = some 0x00 ∧
    (tick { base [(15, 0x10), (1, 0x20)] with params := { Config.defaultParams with vfWriteOrder := .resultLast } }
      0x8F14).map (fun t => t.reg 15) = some 0x30 := by decide

/-- V-A10. -/
theorem test_sub : (tick (base [(1, 0x05), (2, 0x07)]) 0x8125).map (flagAnd 1) = some (0xFE, 0) ∧
    (tick (base [(1, 0x05), (2, 0x05)]) 0x8125).map (flagAnd 1) = some (0x00, 1) := by decide

/-- V-A11. -/
theorem test_subn : (tick (base [(1, 0x05), (2, 0x07)]) 0x8127).map (flagAnd 1) = some (0x02, 1) ∧
    (tick (base [(1, 0x01), (2, 0x00)]) 0x8127).map (flagAnd 1) = some (0xFF, 0) := by decide

/-- V-A12, and V-A13 under VY. -/
theorem test_shr : (tick (base [(1, 0xFF)]) 0x8106).map (flagAnd 1) = some (0x7F, 1) ∧
    (tick { base [(1, 0x00), (2, 0x03)] with params := { Config.defaultParams with shiftSource := .vy } }
      0x8126).map (flagAnd 1) = some (0x01, 1) := by decide

/-- V-A14, and V-A15 under VX. -/
theorem test_shl : (tick (base [(1, 0x81)]) 0x810E).map (flagAnd 1) = some (0x02, 1) ∧
    (tick (base [(1, 0x01), (2, 0xC0)]) 0x812E).map (flagAnd 1) = some (0x02, 0) := by decide

/-- V-A17. -/
theorem test_rnd : (tick (base [] 0 0xAB) 0xC30F).map (fun t => t.reg 3) = some 0x0B := by decide

/-- V-M1. -/
theorem test_ld_i : (tick (base []) 0xA200).map (fun t => (t.i, t.pc)) = some (0x200, 0x202) := by decide

/-- V-M3. -/
theorem test_add_i : (tick { base [(1, 0x01), (15, 0x33)] with i := 0xFFFF } 0xF11E).map (fun t => (t.i, t.reg 15)) =
    some (0x0000, 0x33) := by decide

/-- V-M5. -/
theorem test_ld_f : (tick (base [(4, 0x0F)]) 0xF429).map State.i = some 0x04B ∧
    (tick (base [(4, 0xFF)]) 0xF429).map State.i = some 0x4FB := by decide

/-- V-M6. -/
theorem test_ld_b : (tick { base [(5, 254)] with i := 0x300 } 0xF533).map
    (fun t => (t.mem.read 0x300, t.mem.read 0x301, t.mem.read 0x302)) = some (2, 5, 4) := by decide

/-- V-M8. -/
theorem test_ld_b_out_of_range : (tick { base [(5, 254)] with i := 0xFFE } 0xF533).map
    (fun t => (t.run, t.mem.read 0xFFE)) = some (.halted (.memoryOutOfRange 0x1000), 0) := by decide

/-- V-M9: both values of I_AFTER_BLOCK. -/
theorem test_store : (tick { base [(0, 1), (1, 2), (2, 3)] with i := 0x300 } 0xF255).map
      (fun t => (t.mem.read 0x300, t.mem.read 0x302, t.i)) = some (1, 3, 0x300) ∧
    (tick { base [(0, 1), (1, 2), (2, 3)] with
      i := 0x300, params := { Config.defaultParams with iAfterBlock := .increment } } 0xF255).map State.i =
      some 0x303 := by decide

/-- V-M12. -/
theorem test_store_at_the_top : (tick { base [(0, 7)] with i := 0xFFF } 0xF055).map (fun t => t.mem.read 0xFFF) = some 7 ∧
    (tick { base [(0, 7)] with i := 0xFFF } 0xF155).map (fun t => (t.run, t.mem.read 0xFFF)) =
      some (.halted (.memoryOutOfRange 0x1000), 0) := by decide

/-- V-M10. -/
theorem test_load : (tick { base [(3, 0x44)] with i := 0x300, mem := [(0x300, 9), (0x301, 8), (0x302, 7)] } 0xF265).map
    (fun t => (t.reg 0, t.reg 1, t.reg 2, t.reg 3)) = some (9, 8, 7, 0x44) := by decide

/-- V-M13. -/
theorem test_load_out_of_range : (tick { base [] with i := 0x2000 } 0xF065).map State.run =
    some (.halted (.memoryOutOfRange 0x2000)) := by decide

/-- V-D1: glyph 0 on a blank background; bit x of a row is column x. -/
theorem test_drw_glyph : (tick (base []) 0xD005).map (fun t => (t.fb[0], t.fb[1], t.fb[4], t.fb[5], t.reg 15)) =
    some (0x0F, 0x09, 0x0F, 0, 0) := by decide

/-- V-D7: the pixel was set, so it is cleared and VF is 1. -/
theorem test_drw_collision : (tick { base [] with
      fb := Framebuffer.blank.toggle 1 0, i := 0x300, mem := [(0x300, 0x40)] } 0xD001).map
    (fun t => (t.fb, t.reg 15)) = some (Framebuffer.blank, 1) := by decide

/-- V-D9, V-D10, V-D11: the three edge modes, by the first row and the run state. -/
theorem test_drw_edges : (tick (base [(0, 61)]) 0xD015).map (fun t => (t.fb[0], t.run)) =
      some (0, .halted (.drawOutOfBounds 64 0)) ∧
    (tick { base [(0, 61)] with params := { Config.defaultParams with drawEdgeMode := .wrap } } 0xD015).map
      (fun t => t.fb[0]) = some 0xE000000000000001 ∧
    (tick { base [(0, 61)] with params := { Config.defaultParams with drawEdgeMode := .clip } } 0xD015).map
      (fun t => t.fb[0]) = some 0xE000000000000000 := by decide

/-- V-K1, V-K2, V-K3. -/
theorem test_key_skips : (tick (base [(1, 5)] 0x20) 0xE19E).map State.pc = some 0x204 ∧
    (tick (base [(1, 5)] 0x20) 0xE1A1).map State.pc = some 0x202 ∧
    (tick (base [(1, 0x10)]) 0xE19E).map State.run = some (.halted (.keyIndexOutOfRange 0x10)) := by decide

/-- V-K4. -/
theorem test_key_wait : (tick (base [] 0x88) 0xF20A).map (fun t => (t.reg 2, t.pc)) = some (3, 0x202) := by decide

/-- V-K5: no key held, and the timers run. -/
theorem test_key_wait_without_key : (tick { base [] with dt := 5, st := 2 } 0xF20A).map
    (fun t => (t.pc, t.dt, t.st, t.events)) = some (0x200, 4, 1, [.audioStart]) := by decide

/-- V-K7. -/
theorem test_read_dt : (tick { base [] with dt := 2 } 0xF107).map (fun t => (t.reg 1, t.dt)) = some (2, 1) := by decide

/-- V-K8. -/
theorem test_set_dt : (tick (base [(0, 3)]) 0xF015).map State.dt = some 2 := by decide

/-- V-K9. -/
theorem test_set_st : (tick (base [(0, 2)]) 0xF018).map (fun t => (t.st, t.events)) = some (1, [.audioStart]) ∧
    (tick (base [(0, 1)]) 0xF018).map (fun t => (t.st, t.events)) = some (0, [.audioStop]) ∧
    (tick (base [(0, 0)]) 0xF018).map (fun t => (t.st, t.events)) = some (0, []) := by decide

/-- V-E9: the normal end; no timer update on the halting tick. -/
theorem test_pc_out_of_range : (match step { base [] with pc := 0x1000, dt := 5, st := 3 } with
    | .next t => some (t.run, t.dt, t.st, t.events)
    | _ => none) = some (.halted (.pcOutOfRange 0x1000), 5, 3, [.halted (.pcOutOfRange 0x1000)]) := by decide

/-- V-E10. -/
theorem test_fetch_out_of_range : (match step { base [] with pc := 0xFFF } with
    | .next t => some t.run
    | _ => none) = some (.halted (.fetchOutOfRange 0xFFF)) := by decide

/-- V-T4. -/
theorem test_unknown_opcode : (tick { base [] with dt := 5, st := 5 } 0x8008).map (fun t => (t.run, t.dt, t.events)) =
    some (.halted (.unknownOpcode 0x8008), 5, [.halted (.unknownOpcode 0x8008)]) := by decide

/-- V-L5: a tick before a load. -/
theorem test_tick_before_load : step State.reset = .refused .noProgramLoaded := rfl

/-- V-L2 and V-L4 at their edges: a program of 3585 bytes, and a second load. -/
theorem test_load_rejected : (State.reset.loadProgram (List.replicate 3585 0) = .rejected 3585) ∧
    (State.loadProgram [] { State.reset with loaded := true } = .refused .programAlreadyLoaded) := by
  constructor
  · unfold State.loadProgram
    rw [if_neg (by decide), if_pos (by rw [List.length_replicate]; decide), List.length_replicate]
  · rfl

/-- V-L6: the default launch is reset, the font included. -/
theorem test_construct_default : State.construct Launch.default = State.reset := by decide

/-- The default font's first and last glyph (R69). -/
theorem test_font : State.reset.mem.read 0x000 = 0xF0 ∧ State.reset.mem.read 0x04B = 0xF0 ∧
    State.reset.mem.read 0x04F = 0x80 ∧ State.reset.mem.read 0x050 = 0x00 := by decide

/-- A placed word is what the next step runs. -/
theorem test_with_fetch_word : (match step (State.reset.withFetchWord 16 0x6A02) with
    | .next t => some (t.reg 0xA)
    | _ => none) = some 0x02 := by decide

/-! ## The table's 34 rows, every operand bit 0 -/

/-- The match words of opcode_table.json. -/
def tableWords : List Nat :=
  [0x0000, 0x000E, 0x1000, 0x2000, 0x3000, 0x4000, 0x5000, 0x6000, 0x7000, 0x8000, 0x8001, 0x8002] ++
  [0x8003, 0x8004, 0x8005, 0x8006, 0x8007, 0x800E, 0x9000, 0xA000, 0xB000, 0xC000, 0xD000, 0xE09E] ++
  [0xE0A1, 0xF007, 0xF00A, 0xF015, 0xF018, 0xF01E, 0xF029, 0xF033, 0xF055, 0xF065]

/-- Each decodes to the instruction whose pattern it is. -/
theorem test_table_words_decode : tableWords.all (fun w => match decodeTableWord 16 w with
    | some i => opcodePattern .lowNibble i == BitVec.ofNat 16 w
    | none => false) = true := by decide

/-- Each runs as the first instruction after reset (RET there is a halt, a next state). -/
theorem test_table_words_step : tableWords.all (fun w => match step (State.reset.withFetchWord 16 w) with
    | .next _ => true
    | _ => false) = true := by decide

/-! ## Witnesses: concrete inputs that meet the hypotheses of each statement of Obligations.lean

Each theorem shows the hypotheses only; the statements themselves are the provers'. -/

/-- A RUNNING, loaded block at 0x200 whose next word is w. -/
def at200 (w : Word) : State := (base []).placeWord w

theorem witness_DecodeOfEncodeIsIdentity : (Instr.drw 15 15 15).WellFormed ∧ (Instr.drw 0 0 0).WellFormed := by decide

theorem witness_DecodedWordMatchesItsTableRow : decode .lowNibble 0x0FFE = .ok .ret ∧ decode .exact 0x00EE = .ok .ret ∧
    decode .exact 0x9FFF = .ok (.sneReg 15 15) := by decide

theorem witness_TableRowWordDecodesToThatRow :
    0x0FF0 &&& opcodeMask .lowNibble .cls = opcodePattern .lowNibble .cls ∧
    0xFF65 &&& opcodeMask .exact (.loadRegs 0) = opcodePattern .exact (.loadRegs 0) := by decide

/-- One word of each disjunct of R76, and the two sides of each border. -/
theorem witness_UnknownWordsAreTheTableOfR76 : decode .lowNibble 0x00E1 = .error (.unknownOpcode 0x00E1) ∧
    decode .exact 0x00E1 = .error (.unknownOpcode 0x00E1) ∧ decode .exact 0x01EE = .error (.unknownOpcode 0x01EE) ∧
    decode .exact 0x8008 = .error (.unknownOpcode 0x8008) ∧ decode .exact 0x800F = .error (.unknownOpcode 0x800F) ∧
    decode .exact 0xE09F = .error (.unknownOpcode 0xE09F) ∧ decode .exact 0xF066 = .error (.unknownOpcode 0xF066) := by
  decide

/-- A word of each family that a statement about an instruction decodes. -/
theorem witness_families : opFamily 0x1FFF = 0x1 ∧ opFamily 0xBFFF = 0xB ∧ opFamily 0x3FFF = 0x3 ∧ opFamily 0x4FFF = 0x4 ∧
    opFamily 0x5FFF = 0x5 ∧ opFamily 0x9FFF = 0x9 ∧ opFamily 0x6FFF = 0x6 ∧ opFamily 0x7FFF = 0x7 ∧
    opFamily 0x8FF0 = 0x8 ∧ opN 0x8FF0 = 0x0 ∧ opFamily 0xAFFF = 0xA ∧ opFamily 0xFF0A = 0xF ∧
    (opKK 0xFF0A).toNat = 0x0A := by decide

theorem witness_FetchReadsBigEndianWordAtPc : ({ State.reset with pc := 4094 } : State).pc.toNat < 4095 := by decide

/-- A step that goes on, one that halts in execution, and one at the last address that can be fetched. -/
theorem witness_StepRunsTheDecodedInstruction :
    ((at200 0x6A02).Ready ∧ (at200 0x6A02).NextInstr (.ldByte 0xA 0x02) ∧
      ∃ t, exec (.ldByte 0xA 0x02) { at200 0x6A02 with events := [] } = .next t ∧ t.run = .running) ∧
    ((at200 0x00EE).Ready ∧ (at200 0x00EE).NextInstr .ret ∧
      ∃ t, exec .ret { at200 0x00EE with events := [] } = .next t ∧ t.run ≠ .running) ∧
    (State.placeWord 0x6A02 { base [] with pc := 4094 }).NextInstr (.ldByte 0xA 0x02) :=
  ⟨⟨by decide, by decide, _, rfl, rfl⟩, ⟨by decide, by decide, _, rfl, by decide⟩, by decide⟩

theorem witness_FetchOutsideMemoryHalts : ({ base [] with pc := 4096 } : State).Ready ∧
    4096 ≤ ({ base [] with pc := 4096 } : State).pc.toNat ∧ ({ base [] with pc := 4095 } : State).Ready ∧
    ({ base [] with pc := 4095 } : State).pc.toNat = 4095 := by decide

theorem witness_UnknownOpcodeHaltsTheStep : (at200 0x8008).Ready ∧ (at200 0x8008).pc.toNat < 4095 ∧
    decode (at200 0x8008).params.zeroFamilyDecode ((at200 0x8008).mem.opcodeAt (at200 0x8008).pc.toNat) =
      .error (.unknownOpcode 0x8008) := by decide

theorem witness_HaltedBlockTakesNoStep :
    ({ base [] with run := .halted .stackOverflow } : State).run = .halted .stackOverflow := rfl

theorem witness_UnloadedTickAndSecondLoadAreRefused : State.reset.run = .running ∧ State.reset.loaded = false ∧
    (base []).loaded = true := by decide

theorem witness_ReadyBlockAlwaysTicks : (base []).Ready := by decide

theorem witness_HaltingTickWritesNothingElse : ∃ t, step (at200 0x00EE) = .next t ∧ t.run ≠ .running :=
  ⟨_, rfl, by decide⟩

/-- Both timers at their borders: set to 1 and 255 by the instruction, and left at 0. -/
theorem witness_TickCountsBothTimersDown :
    (∃ t, (at200 0xF018).Ready ∧ (at200 0xF018).NextInstr (.ldStVx 0) ∧ step (at200 0xF018) = .next t ∧
      t.run = .running ∧ (soundAfterStep (.ldStVx 0) (at200 0xF018)).toNat = 0) ∧
    (∃ t, step ((base [(0, 255)]).placeWord 0xF018) = .next t ∧ t.run = .running ∧
      (soundAfterStep (.ldStVx 0) ((base [(0, 255)]).placeWord 0xF018)).toNat = 255) ∧
    (∃ t, step ((base [(0, 1)]).placeWord 0xF015) = .next t ∧ t.run = .running ∧
      (delayAfterStep (.ldDtVx 0) ((base [(0, 1)]).placeWord 0xF015)).toNat = 1) :=
  ⟨⟨_, by decide, by decide, rfl, rfl, by decide⟩, ⟨_, rfl, rfl, by decide⟩, ⟨_, rfl, rfl, by decide⟩⟩

/-- A draw with ST at 2, 1 and 0: each branch of the audio event, after a display event. -/
theorem witness_TickEmitsDisplayThenAudio :
    (∃ t, State.Ready { at200 0x00E0 with st := 2 } ∧ State.NextInstr { at200 0x00E0 with st := 2 } .cls ∧
      step { at200 0x00E0 with st := 2 } = .next t ∧ t.run = .running) ∧
    (∃ t, step { at200 0x00E0 with st := 1 } = .next t ∧ t.run = .running) ∧
    (∃ t, step (at200 0xD001) = .next t ∧ t.run = .running) :=
  ⟨⟨_, by decide, by decide, rfl, rfl⟩, ⟨_, rfl, rfl⟩, ⟨_, rfl, by decide⟩⟩

theorem witness_PcTakesTheValuesOfR29 :
    ∃ t, (at200 0xBFFF).Inv ∧ (at200 0xBFFF).Ready ∧ (at200 0xBFFF).NextInstr (.jpV0 0xFFF) ∧
      step (at200 0xBFFF) = .next t ∧ t.run = .running :=
  ⟨_, ⟨by decide, by decide, by decide⟩, by decide, by decide, rfl, rfl⟩

/-- A step that writes memory, from a state of the invariant with a full stack at its bound. -/
def invariantState : State :=
  { at200 0xFF55 with sp := 16, stack := Vector.replicate 16 0xFFE, i := 0x300 }

theorem witness_EveryStepKeepsTheInvariant : ∃ t, invariantState.Inv ∧ step invariantState = .next t ∧ t.run = .running :=
  ⟨_, ⟨by decide, by decide, by decide⟩, rfl, rfl⟩

theorem witness_LoadKeepsTheInvariant : ∃ t, State.reset.Inv ∧ State.loadProgram [0x12, 0x00] State.reset = .accepted t :=
  ⟨_, ⟨by decide, by decide, by decide⟩, rfl⟩

/-- Equal reads by way of equal lists: a written memory, and the same one after a write that changes nothing. -/
theorem witness_CanonicalMemoriesAreDeterminedByReads :
    Memory.wf [(0x300, 1)] = true ∧ Memory.wf (Memory.write [(0x300, 1)] 0x000 0xF0) = true ∧
    ∀ a, Memory.read [(0x300, 1)] a = Memory.read (Memory.write [(0x300, 1)] 0x000 0xF0) a :=
  ⟨by decide, by decide, fun _ => rfl⟩

theorem witness_OnlyTheStoresWriteMemory : ∃ t, (∀ x, Instr.loadRegs 15 ≠ .ldB x) ∧
    (∀ x, Instr.loadRegs 15 ≠ .storeRegs x) ∧ exec (.loadRegs 15) (base []) = .next t :=
  ⟨_, by decide, by decide, rfl⟩

theorem witness_OnlyNamedRegistersAreWritten :
    (∃ t, exec (.loadRegs 3) (base []) = .next t ∧ mayWriteReg (.loadRegs 3) 4 = false) ∧
    (∃ t, exec (.addReg 14 0) (base []) = .next t ∧ mayWriteReg (.addReg 14 0) 13 = false) :=
  ⟨⟨_, rfl, by decide⟩, ⟨_, rfl, by decide⟩⟩

/-- One instruction outside each clause's writers: Fx55 under UNCHANGED meets all five. -/
theorem witness_SpecialStateHasItsOwnWriters : ∃ t, exec (.storeRegs 15) { base [] with i := 0x300 } = .next t ∧
    (∀ nnn, Instr.storeRegs 15 ≠ .call nnn) ∧ Instr.storeRegs 15 ≠ .ret ∧
    State.params { base [] with i := 0x300 } = Config.defaultParams ∧ Config.defaultParams.iAfterBlock = .unchanged :=
  ⟨_, rfl, (by intro nnn h; cases h), by decide, rfl, rfl⟩

theorem witness_StepKeepsParametersAndUsesOneInput : ∃ t, step (at200 0x6A02) = .next t ∧ t.run = .running :=
  ⟨_, rfl, rfl⟩

/-- Other inputs that agree on what is read: RND with other keys, SKP with another byte, CLS with anything. -/
theorem witness_InputsReachOnlyTheirReaders :
    (∃ t, exec (.rnd 0 0xFF) (base [] 0x0001 0xAB) = .next t ∧ readsKeys (.rnd 0 0xFF) = false ∧
      State.randomByte { base [] 0x0001 0xAB with inputs := [⟨0x8000, 0xAB⟩], ticks := 9 } =
        (base [] 0x0001 0xAB).randomByte) ∧
    (∃ t, exec (.skp 0) (base [] 0x0001 0xAB) = .next t ∧ readsRandom (.skp 0) = false ∧
      State.keys { base [] 0x0001 0xAB with inputs := [⟨0x0001, 0xCD⟩], ticks := 9 } = (base [] 0x0001 0xAB).keys) ∧
    (∃ t, exec .cls (base []) = .next t ∧ readsKeys .cls = false ∧ readsRandom .cls = false) :=
  ⟨⟨_, rfl, rfl, by decide⟩, ⟨_, rfl, rfl, by decide⟩, ⟨_, rfl, rfl, rfl⟩⟩

/-- SP at both ends of each clause of RET and CALL. -/
theorem witness_RetGoesPastTheMatchingCall : 0 < ({ base [] with sp := 1 } : State).sp.val ∧
    0 < ({ base [] with sp := 16 } : State).sp.val ∧ (base []).sp.val = 0 := by decide

theorem witness_CallPushesItsOwnAddress : (base []).sp.val < 16 ∧ ({ base [] with sp := 15 } : State).sp.val < 16 ∧
    ({ base [] with sp := 16 } : State).sp.val = 16 := by decide

theorem witness_CallThenRetComesBack : ({ base [] with sp := 15 } : State).sp.val < 16 := by decide

theorem witness_SkipsCompareWithImmediate : ((base [(15, 0xFF)]).reg 15).toNat = (0xFF : Byte).toNat ∧
    ((base [(15, 0xFF)]).reg 15).toNat ≠ (0xFE : Byte).toNat := by decide

theorem witness_SkipsCompareTwoRegisters : ((base []).reg 1).toNat = ((base []).reg 2).toNat ∧
    ((base [(1, 0x10)]).reg 1).toNat ≠ ((base [(1, 0x10)]).reg 2).toNat := by decide

/-- Each of the five, with a destination that is not VF, and a carry, a borrow and a shifted-out bit. -/
theorem witness_ResultAndFlagDetermineTheExactValue : (14 : RegIdx) ≠ vf ∧
    (∃ t, exec (.addReg 14 1) (base [(14, 0xFF), (1, 1)]) = .next t) ∧
    (∃ t, exec (.subReg 14 1) (base [(14, 0), (1, 1)]) = .next t) ∧
    (∃ t, exec (.subnReg 14 1) (base [(14, 1), (1, 0)]) = .next t) ∧
    (∃ t, exec (.shrReg 14 1) (base [(14, 1)]) = .next t) ∧ (∃ t, exec (.shlReg 14 1) (base [(14, 0x80)]) = .next t) :=
  ⟨by decide, ⟨_, rfl⟩, ⟨_, rfl⟩, ⟨_, rfl⟩, ⟨_, rfl⟩, ⟨_, rfl⟩⟩

/-- A queued input, and none. -/
theorem witness_RndMasksTheRandomByte : (base [] 0 0xAB).inputs = ⟨0, 0xAB⟩ :: [] ∧ State.reset.inputs = [] := by decide

/-- The last address at which three digits fit. -/
theorem witness_DecimalDigitsAreStoredAtI : State.MemoryWf { base [] with i := 0xFFD } ∧
    (State.i { base [] with i := 0xFFD }).toNat + 2 < 4096 := by decide

/-- The last address at which the block fits, for x = 0 and x = F. -/
theorem witness_RegisterBlockIsStoredAtI :
    (State.MemoryWf { base [] with i := 0xFFF } ∧ (State.i { base [] with i := 0xFFF }).toNat + (0 : RegIdx).val < 4096) ∧
    (State.MemoryWf { base [] with i := 0xFF0 } ∧ (State.i { base [] with i := 0xFF0 }).toNat + (15 : RegIdx).val < 4096) := by
  decide

theorem witness_RegisterBlockIsLoadedFromI : (State.i { base [] with i := 0xFF0 }).toNat + (15 : RegIdx).val < 4096 ∧
    (State.i { base [] with i := 0xFFF }).toNat + (0 : RegIdx).val < 4096 := by decide

/-- The first address at which each range reaches 4096. -/
theorem witness_AccessBeyondMemoryHaltsFirst : 4096 ≤ (State.i { base [] with i := 0xFFE }).toNat + 2 ∧
    4096 ≤ (State.i { base [] with i := 0xFF1 }).toNat + (15 : RegIdx).val ∧
    4096 ≤ (State.i { base [] with i := 0x1000 }).toNat + (0 : RegIdx).val ∧
    4096 < (State.i { base [] with i := 0xFFF }).toNat + 2 ∧ 4096 < (State.i { base [] with i := 0x1000 }).toNat + 1 := by
  decide

theorem witness_FetchSeesTheStoredBlock : ∃ t, State.MemoryWf { base [] with i := 0xFF0 } ∧
    (State.i { base [] with i := 0xFF0 }).toNat + (15 : RegIdx).val < 4096 ∧ (15 : RegIdx).val = (14 : RegIdx).val + 1 ∧
    (15 : RegIdx).val ≤ (15 : RegIdx).val ∧ exec (.storeRegs 15) { base [] with i := 0xFF0 } = .next t :=
  ⟨_, by decide, by decide, by decide, by decide, rfl⟩

/-- A one-row sprite 0x80 at I = 0x300, drawn at (V0, V1), under an edge mode. -/
def spriteState (m : Config.DrawEdgeMode) (x0 y0 : Byte) : State :=
  { base [(0, x0), (1, y0)] with
    i := 0x300, mem := [(0x300, 0x80)], params := { Config.defaultParams with drawEdgeMode := m } }

/-- The sprite in the last column and row under FAULT, off the grid under WRAP and CLIP, and the empty sprite. -/
theorem witness_DrawInvertsTheCoveredPixels :
    (spriteState .fault 63 31).SpriteInside 0 1 1 ∧ (spriteState .fault 63 31).i.toNat + 1 ≤ 4096 ∧
    (spriteState .fault 255 255).SpriteInside 0 1 0 ∧
    (spriteState .wrap 64 32).params.drawEdgeMode ≠ .fault ∧ (spriteState .clip 64 32).params.drawEdgeMode ≠ .fault := by
  refine ⟨?_, by decide, ?_, by decide, by decide⟩
  · intro r c hr hc hb
    obtain rfl : r = 0 := by omega
    interval_cases c <;> revert hb <;> decide
  · intro r c hr
    omega

/-- Row 32 in column 0: the first pixel past the lower edge, and the first target of all. -/
theorem witness_DrawOutsideGridHaltsUnderFault :
    (spriteState .fault 0 32).i.toNat + 1 ≤ 4096 ∧ (spriteState .fault 0 32).params.drawEdgeMode = .fault ∧
    (spriteState .fault 0 32).SpriteBit 0 0 ∧ 32 ≤ ((spriteState .fault 0 32).reg 1).toNat + 0 ∧
    (∀ r' c' : Nat, r' < 1 → c' < 8 → (spriteState .fault 0 32).SpriteBit r' c' → (r' < 0 ∨ (r' = 0 ∧ c' < 0)) →
      ((spriteState .fault 0 32).reg 0).toNat + c' < 64 ∧ ((spriteState .fault 0 32).reg 1).toNat + r' < 32) := by
  refine ⟨by decide, by decide, by decide, by decide, ?_⟩
  intro r' c' _ _ _ h
  omega

/-- Column 64 reached by bit 4 of a full row that starts at column 61: the three bits before it are inside. -/
theorem witness_DrawOutsideGridHaltsUnderFault_inside_first :
    let s : State := { spriteState .fault 61 31 with mem := [(0x300, 0xFF)] }
    s.i.toNat + 1 ≤ 4096 ∧ s.params.drawEdgeMode = .fault ∧ s.SpriteBit 0 3 ∧ 64 ≤ (s.reg 0).toNat + 3 ∧
    (∀ r' c' : Nat, r' < 1 → c' < 8 → s.SpriteBit r' c' → (r' < 0 ∨ (r' = 0 ∧ c' < 3)) →
      (s.reg 0).toNat + c' < 64 ∧ (s.reg 1).toNat + r' < 32) := by
  refine ⟨by decide, by decide, by decide, by decide, ?_⟩
  intro r' c' hr _ _ h
  obtain rfl : r' = 0 := by omega
  have hc : c' < 3 := by omega
  interval_cases c' <;> decide

theorem witness_DrawingTwiceRestoresTheFrame : ∃ t, (spriteState .fault 63 31).run = .running ∧
    exec (.drw 0 1 1) (spriteState .fault 63 31) = .next t ∧ t.run = .running ∧
    t.reg 0 = (spriteState .fault 63 31).reg 0 ∧ t.reg 1 = (spriteState .fault 63 31).reg 1 :=
  ⟨_, by decide, rfl, by decide, by decide, by decide⟩

/-- The state that refutes R123's sentence: the one pixel the sprite lands on is set before the first draw. -/
def setBackground : State := { spriteState .fault 0 0 with fb := Framebuffer.blank.toggle 0 0 }

theorem witness_SecondDrawAlwaysCollidesIfTheSpriteHasATarget : ∃ t u, setBackground.run = .running ∧
    exec (.drw 0 1 1) setBackground = .next t ∧ t.run = .running ∧ t.reg 0 = setBackground.reg 0 ∧
    t.reg 1 = setBackground.reg 1 ∧ exec (.drw 0 1 1) t = .next u :=
  ⟨_, _, by decide, rfl, by decide, by decide, by decide, rfl⟩

/-- Key 15, the last, and key 16, the first that does not exist; a queued sample, and none. -/
theorem witness_KeySkipsTestTheSample : ((base [(1, 15)]).reg 1).toNat ≤ 15 ∧ 15 < ((base [(1, 16)]).reg 1).toNat ∧
    (base [] 0x8001 0xAB).inputs = ⟨0x8001, 0xAB⟩ :: [] ∧ State.reset.inputs = [] := by decide

/-- Key 15 alone, keys 0 and 15, and no key. -/
theorem witness_KeyWaitTakesTheLeastHeldKey :
    ((base [] 0x8000).keys.getLsbD 15 = true ∧ ∀ j : Fin 16, j.val < 15 → (base [] 0x8000).keys.getLsbD j.val = false) ∧
    ((base [] 0x8001).keys.getLsbD 0 = true ∧ ∀ j : Fin 16, j.val < 0 → (base [] 0x8001).keys.getLsbD j.val = false) ∧
    (∀ k : Fin 16, (base [] 0).keys.getLsbD k.val = false) := by decide

theorem witness_LoadPlacesTheProgramOrRejectsIt : State.reset.loaded = false ∧ State.reset.MemoryWf ∧
    (List.replicate 3584 (0 : Byte)).length ≤ 3584 ∧ 3584 < (List.replicate 3585 (0 : Byte)).length := by
  rw [List.length_replicate, List.length_replicate]
  decide

end Sys2Proof.Machine.Tests
end

section
/-!
SUPPORT. Who may change what, said once: the frame of an instruction, by field of the state, with the few instructions that
write the field. The claims of 10_state.md about the state's writers are read off from it.
-/

namespace Sys2Proof.Machine

/-! ### What an instruction leaves in each register -/

/-- I after the step: Annn, Fx1E and Fx29 write it, and Fx55 and Fx65 as I_AFTER_BLOCK says (10_state.md R27). -/
def indexAfterStep (i : Instr) (s : State) : Word :=
  match i with
  | .ldI nnn => zext16 nnn
  | .addI x => BitVec.ofNat 16 (s.i.toNat + (s.reg x).toNat)
  | .ldF x => BitVec.ofNat 16 ((s.reg x).toNat * 5)
  | .storeRegs x | .loadRegs x => s.indexAfterBlock x
  | _ => s.i

/-- Under I_AFTER_BLOCK = UNCHANGED, Fx55 and Fx65 leave I alone (R116). -/
theorem State.indexAfterBlock_unchanged {s : State} (x : RegIdx) (h : s.params.iAfterBlock = .unchanged) :
    s.indexAfterBlock x = s.i := by
  unfold State.indexAfterBlock
  rw [h]

/-- An instruction outside R27's list leaves I alone. -/
theorem indexAfterStep_of_notWriter {i : Instr} {s : State} (hld : ∀ nnn, i ≠ .ldI nnn) (hadd : ∀ x, i ≠ .addI x)
    (hf : ∀ x, i ≠ .ldF x)
    (hblock : (∀ x, i ≠ .storeRegs x ∧ i ≠ .loadRegs x) ∨ s.params.iAfterBlock = .unchanged) :
    indexAfterStep i s = s.i := by
  cases i with
  | ldI nnn => exact absurd rfl (hld nnn)
  | addI x => exact absurd rfl (hadd x)
  | ldF x => exact absurd rfl (hf x)
  | storeRegs x =>
    rcases hblock with hne | hun
    · exact absurd rfl (hne x).1
    · exact State.indexAfterBlock_unchanged x hun
  | loadRegs x =>
    rcases hblock with hne | hun
    · exact absurd rfl (hne x).2
    · exact State.indexAfterBlock_unchanged x hun
  | _ => rfl

/-- An instruction other than Fx15 leaves DT alone. -/
theorem delayAfterStep_of_notWriter {i : Instr} (s : State) (h : ∀ x, i ≠ .ldDtVx x) : delayAfterStep i s = s.dt := by
  cases i with
  | ldDtVx x => exact absurd rfl (h x)
  | _ => rfl

/-- An instruction other than Fx18 leaves ST alone. -/
theorem soundAfterStep_of_notWriter {i : Instr} (s : State) (h : ∀ x, i ≠ .ldStVx x) : soundAfterStep i s = s.st := by
  cases i with
  | ldStVx x => exact absurd rfl (h x)
  | _ => rfl

/-! ### The frame of an instruction that goes on -/

/-- The frame of an instruction that goes on, field by field: I, DT and ST hold what the instruction gives them, and the
memory, the stack and the framebuffer are as before unless it is one of the instructions that write them. -/
structure State.Frame (i : Instr) (s t : State) : Prop where
  mem : (∀ x, i ≠ .ldB x) → (∀ x, i ≠ .storeRegs x) → t.mem = s.mem
  stack : (∀ nnn, i ≠ .call nnn) → i ≠ .ret → t.stack = s.stack ∧ t.sp = s.sp
  index : t.i = indexAfterStep i s
  delay : t.dt = delayAfterStep i s
  sound : t.st = soundAfterStep i s
  fb : i ≠ .cls → (∀ x y n, i ≠ .drw x y n) → t.fb = s.fb

/-- Every instruction that goes on keeps to its frame. -/
theorem GoesOn.frame {i : Instr} {s t : State} (h : GoesOn i s t) : State.Frame i s t := by
  cases i with
  | ret =>
    obtain ⟨_, rfl⟩ := h
    exact ⟨fun _ _ => rfl, fun _ hret => absurd rfl hret, rfl, rfl, rfl, fun _ _ => rfl⟩
  | call nnn =>
    obtain ⟨_, rfl⟩ := h
    exact ⟨fun _ _ => rfl, fun hcall _ => absurd rfl (hcall nnn), rfl, rfl, rfl, fun _ _ => rfl⟩
  | ldB _ | storeRegs _ | loadRegs _ | skp _ | sknp _ =>
    obtain ⟨_, rfl⟩ := h
    constructor <;> simp [indexAfterStep, delayAfterStep, soundAfterStep]
  | drw _ _ _ =>
    obtain ⟨_, _, _, rfl⟩ := h
    constructor <;> simp [State.drawTargets, indexAfterStep, delayAfterStep, soundAfterStep]
  | ldVxK _ =>
    cases h
    exact ⟨fun _ _ => rfl, fun _ _ => ⟨rfl, rfl⟩, rfl, rfl, rfl, fun _ _ => rfl⟩
  | _ =>
    cases h
    constructor <;> simp [indexAfterStep, delayAfterStep, soundAfterStep]

/-! ### CALL and RET -/

/-- CALL with a free slot (40_control.md R87). -/
theorem exec_call_of_free {s : State} (nnn : Addr12) (h : s.sp.val < 16) :
    exec (.call nnn) s = .next { s with
      stack := s.stack.set s.sp.val s.pc h, sp := ⟨s.sp.val + 1, by omega⟩, pc := zext16 nnn } := by
  simp [exec, execCall, State.push, h, State.setPc]

/-- CALL with 16 slots occupied (40_control.md R87). -/
theorem exec_call_of_full {s : State} (nnn : Addr12) (h : s.sp.val = 16) :
    exec (.call nnn) s = halt .stackOverflow s := by
  simp [exec, execCall, State.push, h]

/-- RET with an occupied slot (40_control.md R85). -/
theorem exec_ret_of_occupied {s : State} (h : 0 < s.sp.val) :
    exec .ret s = .next { s with
      sp := ⟨s.sp.val - 1, by omega⟩, pc := s.stack[s.sp.val - 1]'(by omega) + 2 } := by
  simp [exec, execRet, State.pop, h, State.setPc]

/-- RET with no slot occupied (40_control.md R85). -/
theorem exec_ret_of_empty {s : State} (h : s.sp.val = 0) : exec .ret s = halt .stackUnderflow s := by
  simp [exec, execRet, State.pop, h]

/-! ### General registers -/

/-- WriteBack writes V[x] and VF only. -/
theorem State.reg_writeBack_other {x z : RegIdx} (r : Byte) (f : Bool) (s : State) (hx : x ≠ z) (hf : vf ≠ z) :
    (s.writeBack x r f).reg z = s.reg z := by
  simp [State.reg_writeBack, hx, hf]

/-- Fx65 leaves every register above Vx alone. -/
theorem State.loadedRegisters_above {x z : RegIdx} (base : Nat) (s : State) (h : ¬ z.val ≤ x.val) :
    (s.loadedRegisters x base)[z] = s.reg z := by
  have hz : ¬ z ≤ x := h
  simp [State.loadedRegisters, State.reg, hz]

/-- A draw writes no general register but VF. -/
theorem State.reg_drawTargets_other {z : RegIdx} (ts : List Target) (s : State) (h : vf ≠ z) :
    (s.drawTargets ts).reg z = s.reg z := by
  simp [State.drawTargets, State.reg_setReg_other _ _ h]

/-- Fx0A writes no general register but V[x], whether or not a key is pressed. -/
theorem reg_of_ldVxK_other {x z : RegIdx} {s t : State} (h : exec (.ldVxK x) s = .next t) (hz : x ≠ z) :
    t.reg z = s.reg z := by
  cases h
  cases hk : firstPressed s.keys with
  | none => rfl
  | some k => simpa [State.setReg, State.reg, hk] using State.reg_setReg_other (keyByte k) s hz

/-- An instruction that goes on leaves every register outside R22's and R24's list alone. -/
theorem GoesOn.reg_of_notWriter {i : Instr} {s t : State} {z : RegIdx} (h : GoesOn i s t)
    (hz : mayWriteReg i z = false) : t.reg z = s.reg z := by
  cases i with
  | ldByte x _ | addByte x _ | rnd x _ | ldVxDt x | ldReg x _ | orReg x _ | andReg x _ | xorReg x _ =>
    cases h
    exact State.reg_setReg_other _ s (Ne.symm (by simpa [mayWriteReg] using hz))
  | ldVxK x => exact reg_of_ldVxK_other h (Ne.symm (by simpa [mayWriteReg] using hz))
  | addReg x _ | subReg x _ | shrReg x _ | subnReg x _ | shlReg x _ =>
    cases h
    obtain ⟨hx, hf⟩ : z ≠ x ∧ z ≠ vf := by simpa [mayWriteReg] using hz
    exact State.reg_writeBack_other _ _ s hx.symm hf.symm
  | drw _ _ _ =>
    obtain ⟨_, ts, _, rfl⟩ := h
    exact State.reg_drawTargets_other ts s (Ne.symm (by simpa [mayWriteReg] using hz))
  | loadRegs x =>
    obtain ⟨_, rfl⟩ := h
    exact State.loadedRegisters_above _ s (by simpa [mayWriteReg] using hz)
  | ret | call _ | ldB _ | storeRegs _ | skp _ | sknp _ =>
    obtain ⟨_, rfl⟩ := h
    rfl
  | _ =>
    cases h
    rfl

/-! ### The claims -/

/-- Settles O29: the RET pops the slot that the CALL filled, and leaves it filled. -/
theorem callThenRetComesBack : Obligations.CallThenRetComesBack := by
  intro s nnn hsp
  refine ⟨_, _, exec_call_of_free nnn hsp, exec_ret_of_occupied (Nat.succ_pos _), ?_, fun j hj => ?_, fun j hj => ?_⟩
  · simp
  · exact Vector.getElem_set_ne hsp j.isLt (Ne.symm hj)
  · simp [hj]

/-- Settles O22: a halt writes no register, and an instruction that goes on keeps to R22's and R24's list. -/
theorem onlyNamedRegistersAreWritten : Obligations.OnlyNamedRegistersAreWritten := by
  intro i s t z hexec hz
  rcases exec_next_cases hexec with ⟨r, rfl⟩ | hgo
  · rfl
  · exact hgo.reg_of_notWriter hz

/-- Settles O23: a halt writes none of these fields, and an instruction that goes on keeps to its frame. -/
theorem specialStateHasItsOwnWriters : Obligations.SpecialStateHasItsOwnWriters := by
  intro i s t hexec
  rcases exec_next_cases hexec with ⟨r, rfl⟩ | hgo
  · exact ⟨fun _ _ => ⟨rfl, rfl⟩, fun _ _ _ _ => rfl, fun _ => rfl, fun _ => rfl, fun _ _ => rfl⟩
  · have hframe := hgo.frame
    refine ⟨hframe.stack, fun hld hadd hf hblock => ?_, fun hdt => ?_, fun hst => ?_, hframe.fb⟩
    · exact hframe.index.trans (indexAfterStep_of_notWriter hld hadd hf hblock)
    · exact hframe.delay.trans (delayAfterStep_of_notWriter s hdt)
    · exact hframe.sound.trans (soundAfterStep_of_notWriter s hst)

end Sys2Proof.Machine
end

section
/-!
SUPPORT. The invariant of the machine: PC takes R29's values, and memory, the return addresses and PC keep their bounds
(10_state.md R29, R31).
-/

namespace Sys2Proof.Machine

/-! ### PC as a natural number -/

/-- From a PC that can be fetched, PC + k does not wrap for a small k. -/
theorem toNat_add_of_fetchable {p : Word} (k : Word) (hp : p.toNat < 4095) (hk : k.toNat ≤ 4) :
    (p + k).toNat = p.toNat + k.toNat :=
  BitVec.toNat_add_of_lt (by omega)

/-- PC + 2 as a natural number, after any instruction that goes to the next one. -/
theorem toNat_add_two {p : Word} (hp : p.toNat < 4095) : (p + 2).toNat = p.toNat + 2 :=
  toNat_add_of_fetchable 2 hp (by decide)

/-- PC after a skip instruction, as natural numbers (40_control.md R82). -/
theorem State.skipIf_pc_mem (c : Bool) {s : State} (hp : s.pc.toNat < 4095) :
    (s.skipIf c).pc.toNat ∈ [s.pc.toNat + 2, s.pc.toNat + 4] := by
  rw [State.skipIf_pc]
  cases c with
  | false => exact List.mem_cons.mpr (.inl (toNat_add_two hp))
  | true => exact List.mem_cons_of_mem _ (List.mem_singleton.mpr (toNat_add_of_fetchable 4 hp (by decide)))

/-- The target of Bnnn does not wrap (40_control.md R88). -/
theorem toNat_indexedTarget (nnn : Addr12) (b : Byte) :
    (zext16 nnn + b.setWidth 16).toNat = nnn.toNat + b.toNat := by
  have hn := nnn.isLt
  have hb : (b.setWidth 16).toNat = b.toNat := BitVec.toNat_setWidth_of_le (by decide)
  rw [BitVec.toNat_add_of_lt (by rw [toNat_zext16, hb]; omega), toNat_zext16, hb]

/-- The top of the stack is the address of a CALL that was fetched. -/
theorem State.top_le_of_returnAddresses {s : State} (hret : s.ReturnAddressesFetched) (hsp : 0 < s.sp.val) :
    (s.stack[s.sp.val - 1]'(by omega)).toNat ≤ 0xFFE :=
  hret ⟨s.sp.val - 1, by omega⟩ (by simp only; omega)

/-- PC after an instruction that goes to the next one, as a natural number. -/
theorem toNat_pc_mem_next {s t : State} (hp : s.pc.toNat < 4095) (ht : t.pc = s.pc + 2) :
    t.pc.toNat ∈ [s.pc.toNat + 2] :=
  List.mem_singleton.mpr (ht ▸ toNat_add_two hp)

/-- PC after an instruction that goes on is one of R29's values. -/
theorem GoesOn.pc_mem_pcChoices {i : Instr} {s t : State} (h : GoesOn i s t) (hret : s.ReturnAddressesFetched)
    (hp : s.pc.toNat < 4095) : t.pc.toNat ∈ pcChoices i s := by
  cases i with
  | ret =>
    obtain ⟨hsp, rfl⟩ := h
    have htop := s.top_le_of_returnAddresses hret hsp
    rw [pcChoices, dif_pos hsp]
    exact List.mem_singleton.mpr (toNat_add_two (by omega))
  | call nnn =>
    obtain ⟨_, rfl⟩ := h
    exact List.mem_singleton.mpr (toNat_zext16 nnn)
  | jp nnn =>
    cases h
    exact List.mem_singleton.mpr (toNat_zext16 nnn)
  | jpV0 nnn =>
    cases h
    exact List.mem_singleton.mpr (toNat_indexedTarget nnn (s.reg 0))
  | seByte _ _ | sneByte _ _ | seReg _ _ | sneReg _ _ =>
    cases h
    exact State.skipIf_pc_mem _ hp
  | skp _ | sknp _ =>
    obtain ⟨_, rfl⟩ := h
    exact State.skipIf_pc_mem _ hp
  | ldVxK _ =>
    cases h
    cases firstPressed s.keys with
    | none => exact List.mem_cons_self
    | some k => exact List.mem_cons_of_mem _ (toNat_pc_mem_next hp rfl)
  | drw _ _ _ =>
    obtain ⟨_, _, _, rfl⟩ := h
    exact toNat_pc_mem_next hp (by simp [State.drawTargets])
  | ldB _ | storeRegs _ | loadRegs _ =>
    obtain ⟨_, rfl⟩ := h
    exact toNat_pc_mem_next hp (by simp)
  | _ =>
    cases h
    exact toNat_pc_mem_next hp (by simp)

/-- R29's values are at most 0x10FE, the largest target of Bnnn (R31). -/
theorem le_of_mem_pcChoices {i : Instr} {s : State} {n : Nat} (hret : s.ReturnAddressesFetched)
    (hp : s.pc.toNat < 4095) (hn : n ∈ pcChoices i s) : n ≤ 0x10FE := by
  cases i with
  | ret =>
    by_cases hsp : 0 < s.sp.val
    · have htop := s.top_le_of_returnAddresses hret hsp
      simp only [pcChoices, hsp, dif_pos, List.mem_singleton] at hn
      omega
    · simp [pcChoices, hsp] at hn
  | jp nnn | call nnn =>
    have := nnn.isLt
    simp only [pcChoices, List.mem_singleton] at hn
    omega
  | jpV0 nnn =>
    have := nnn.isLt
    have := (s.reg 0).isLt
    simp only [pcChoices, List.mem_singleton] at hn
    omega
  | _ =>
    simp only [pcChoices, List.mem_cons, List.not_mem_nil, or_false] at hn
    omega

/-! ### Memory and the stack -/

/-- The range check passes exactly when the access ends inside the memory. -/
theorem accessHalt_eq_none_iff (base n : Nat) : accessHalt base n = none ↔ n = 0 ∨ base + n ≤ Config.memSize := by
  refine ⟨fun h => ?_, accessHalt_none_of base n⟩
  by_contra hout
  rw [accessHalt_some_of base n (by omega) (by omega)] at h
  cases h

/-- A store whose range check passed keeps memory canonical. -/
theorem State.storeBytes_memoryWf {s : State} {base : Nat} {bs : List Byte} (hm : s.MemoryWf)
    (hacc : accessHalt base bs.length = none) : (s.storeBytes base bs).MemoryWf := by
  rcases (accessHalt_eq_none_iff _ _).mp hacc with hnil | hin
  · rw [List.length_eq_zero_iff.mp hnil]
    exact hm
  · exact Memory.writeBytes_wf bs s.mem base hm hin

/-- Fx55 stores x + 1 bytes. -/
theorem State.length_registerBlock (x : RegIdx) (s : State) : (s.registerBlock x).length = x.val + 1 := by
  simp [State.registerBlock]

/-- An instruction that goes on keeps memory canonical. -/
theorem GoesOn.memoryWf {i : Instr} {s t : State} (h : GoesOn i s t) (hm : s.MemoryWf) : t.MemoryWf := by
  cases i with
  | ldB x =>
    obtain ⟨hacc, rfl⟩ := h
    exact State.storeBytes_memoryWf hm hacc
  | storeRegs x =>
    obtain ⟨hacc, rfl⟩ := h
    exact State.storeBytes_memoryWf hm (by rw [State.length_registerBlock]; exact hacc)
  | _ =>
    have hmem := h.frame.mem (by simp) (by simp)
    exact (congrArg Memory.wf hmem).trans hm

/-- An instruction that goes on keeps the return addresses bounded: CALL pushes an address that was fetched, RET only
frees a slot, and the others leave the stack alone. -/
theorem GoesOn.returnAddressesFetched {i : Instr} {s t : State} (h : GoesOn i s t) (hret : s.ReturnAddressesFetched)
    (hp : s.pc.toNat < 4095) : t.ReturnAddressesFetched := by
  intro j hj
  cases i with
  | ret =>
    obtain ⟨_, rfl⟩ := h
    exact hret j (by simp only at hj; omega)
  | call nnn =>
    obtain ⟨hsp, rfl⟩ := h
    by_cases htop : s.sp.val = j.val
    · simp [htop]
      omega
    · simpa [Vector.getElem_set, htop] using hret j (by simp only at hj; omega)
  | _ =>
    obtain ⟨hstack, hsp⟩ := h.frame.stack (by simp) (by simp)
    rw [hstack]
    exact hret j (by rwa [hsp] at hj)

/-- An instruction that goes on from a PC that was fetched keeps the invariant. -/
theorem GoesOn.inv {i : Instr} {s t : State} (h : GoesOn i s t) (hinv : s.Inv) (hp : s.pc.toNat < 4095) : t.Inv where
  memoryWf := h.memoryWf hinv.memoryWf
  returnAddresses := h.returnAddressesFetched hinv.returnAddresses hp
  pcBounded := le_of_mem_pcChoices hinv.returnAddresses hp (h.pc_mem_pcChoices hinv.returnAddresses hp)

/-- The invariant looks at memory, the stack, SP and PC only. -/
theorem State.Inv.congr {s t : State} (h : s.Inv) (hmem : t.mem = s.mem) (hstack : t.stack = s.stack)
    (hsp : t.sp = s.sp) (hpc : t.pc = s.pc) : t.Inv := by
  obtain ⟨hm, hret, hbound⟩ := h
  refine ⟨?_, ?_, ?_⟩
  · rwa [State.MemoryWf, hmem]
  · rwa [State.ReturnAddressesFetched, hstack, hsp]
  · rwa [State.PcBounded, hpc]

/-! ### The claims -/

/-- Settles O18: a halt leaves what the invariant looks at alone, an instruction that goes on keeps it, and the timer
update does not touch it. -/
theorem everyStepKeepsTheInvariant : Obligations.EveryStepKeepsTheInvariant := by
  intro s t hinv hstep
  obtain ⟨_, _, ⟨r, rfl⟩ | ⟨i, u, hfetch, _, hgo, rfl⟩⟩ := step_next_cases hstep
  · exact hinv.congr rfl rfl rfl rfl
  · have hbegin : s.beginTick.Inv := hinv.congr rfl rfl rfl rfl
    have hu : u.Inv := hgo.inv hbegin (State.fetchInstr_ok hfetch).1
    exact hu.congr rfl rfl rfl rfl

/-- Settles O17: construction writes at most 4096 bytes of initial memory and 80 of font, frees every slot and starts at
0x200. -/
theorem invariantHoldsAtReset : Obligations.InvariantHoldsAtReset := by
  have hreset : State.reset.Inv := ⟨Memory.nil_wf, fun _ hj => absurd hj (Nat.not_lt_zero _), by decide⟩
  refine ⟨hreset, fun l => ⟨?_, fun _ hj => absurd hj (Nat.not_lt_zero _), hreset.pcBounded⟩⟩
  refine Memory.writeBytes_wf _ _ _ (Memory.writeBytes_wf _ _ _ Memory.nil_wf ?_) ?_
  · simp
  · simp [Config.memSize]

/-- Settles O58: every launch starts from reset's PC and timers. -/
theorem constructionSetsPcAndTimers : Obligations.ConstructionSetsPcAndTimers := by
  exact ⟨rfl, rfl, rfl, fun _ => ⟨rfl, rfl, rfl⟩⟩

end Sys2Proof.Machine
end

section
/-!
SUPPORT. The tick around the instruction: when it takes no step, what a tick that goes on has run, and what it does to the
timers, PC and the inputs (10_state.md R37, R40, R41; 60_exceptions.md R141, R142).
-/

namespace Sys2Proof.Machine

/-- A tick that goes on ran the instruction at PC, and then the timer update. -/
theorem step_running_goesOn {s t : State} {i : Instr} (hnext : s.NextInstr i) (hstep : step s = .next t)
    (hrun : t.run = .running) : ∃ u, GoesOn i s.beginTick u ∧ t = u.timerTick.nextInput := by
  obtain ⟨_, _, ⟨r, rfl⟩ | ⟨j, u, hfetch, _, hgo, rfl⟩⟩ := step_next_cases hstep
  · cases hrun
  · have hj : decode s.params.zeroFamilyDecode (s.mem.opcodeAt s.pc.toNat) = .ok j := (State.fetchInstr_ok hfetch).2
    have hij : i = j := Except.ok.inj (hnext.2.symm.trans hj)
    exact ⟨u, hij ▸ hgo, rfl⟩

/-! ### What an instruction gives DT, ST and PC does not depend on the output list -/

theorem delayAfterStep_beginTick (i : Instr) (s : State) : delayAfterStep i s.beginTick = delayAfterStep i s := rfl
theorem soundAfterStep_beginTick (i : Instr) (s : State) : soundAfterStep i s.beginTick = soundAfterStep i s := rfl
theorem pcChoices_beginTick (i : Instr) (s : State) : pcChoices i s.beginTick = pcChoices i s := rfl

/-! ### The claims -/

/-- Settles O10: step looks at the run state first. -/
theorem haltedBlockTakesNoStep : Obligations.HaltedBlockTakesNoStep := by
  intro s h hrun
  have hstep : step s = .fault (.blockHalted h) := by
    unfold step
    rw [hrun]
  refine ⟨hstep, fun t ht => ?_⟩
  rw [hstep] at ht
  cases ht

/-- Settles O14: the timer update counts down what the frame of the instruction leaves in each timer. -/
theorem tickCountsBothTimersDown : Obligations.TickCountsBothTimersDown := by
  intro s t i _ hnext hstep hrun
  obtain ⟨u, hgo, rfl⟩ := step_running_goesOn hnext hstep hrun
  obtain ⟨hdt, hst⟩ := And.intro hgo.frame.delay hgo.frame.sound
  rw [delayAfterStep_beginTick] at hdt
  rw [soundAfterStep_beginTick] at hst
  exact ⟨by simp [toNat_countDown, hdt], by simp [toNat_countDown, hst]⟩

/-- Settles O16: the tick keeps the PC that the instruction left, which is one of R29's values. -/
theorem pcTakesTheValuesOfR29 : Obligations.PcTakesTheValuesOfR29 := by
  intro s t i hinv _ hnext hstep hrun
  obtain ⟨u, hgo, rfl⟩ := step_running_goesOn hnext hstep hrun
  rw [← pcChoices_beginTick]
  exact hgo.pc_mem_pcChoices hinv.returnAddresses hnext.1

/-- Settles O24: a halt writes none of these fields; an instruction that goes on leaves them alone, and the end of its tick
moves the inputs up. -/
theorem stepKeepsParametersAndUsesOneInput : Obligations.StepKeepsParametersAndUsesOneInput := by
  intro s t hstep
  obtain ⟨_, _, ⟨r, rfl⟩ | ⟨i, u, _, _, hgo, rfl⟩⟩ := step_next_cases hstep
  · exact ⟨rfl, rfl, fun hrun => nomatch hrun⟩
  · obtain ⟨_, hloaded, hparams, hinputs, hticks⟩ := hgo.sameSetup
    exact ⟨hparams, hloaded, fun _ => ⟨congrArg List.tail hinputs, congrArg (· + 1) hticks⟩⟩

end Sys2Proof.Machine
end

section
/-!
SUPPORT. The inputs of a tick reach an instruction only through the key sample and the random byte (10_state.md R39;
41_alu.md R107): with other inputs an instruction does the same, and leaves the other inputs.
-/

namespace Sys2Proof.Machine

/-- s with other queued inputs and another tick number. -/
def State.withInputs (ins : List TickInput) (k : Nat) (s : State) : State := { s with inputs := ins, ticks := k }

/-- A next state, changed; a fault or a refusal as it is. -/
def mapNext (f : State → State) : Result → Result
  | .next s => .next (f s)
  | .fault r => .fault r
  | .refused r => .refused r

@[simp] theorem State.withInputs_i (ins : List TickInput) (k : Nat) (s : State) : (s.withInputs ins k).i = s.i := rfl
@[simp] theorem State.withInputs_params (ins : List TickInput) (k : Nat) (s : State) :
    (s.withInputs ins k).params = s.params := rfl
@[simp] theorem State.withInputs_reg (ins : List TickInput) (k : Nat) (s : State) (z : RegIdx) :
    (s.withInputs ins k).reg z = s.reg z := rfl
@[simp] theorem State.withInputs_loadBytes (ins : List TickInput) (k base n : Nat) (s : State) :
    (s.withInputs ins k).loadBytes base n = s.loadBytes base n := rfl

/-- WriteBack does not see the inputs. -/
theorem State.writeBack_withInputs (ins : List TickInput) (k : Nat) (x : RegIdx) (r : Byte) (f : Bool) (s : State) :
    (s.withInputs ins k).writeBack x r f = (s.writeBack x r f).withInputs ins k := by
  simp only [State.writeBack, State.withInputs_params]
  cases s.params.vfWriteOrder <;> rfl

/-- The key sample and the random byte are all that an instruction sees of the inputs. -/
theorem exec_withInputs {ins : List TickInput} {k : Nat} {i : Instr} {s : State}
    (hkeys : readsKeys i = true → (s.withInputs ins k).keys = s.keys)
    (hrnd : readsRandom i = true → (s.withInputs ins k).randomByte = s.randomByte) :
    exec i (s.withInputs ins k) = mapNext (State.withInputs ins k) (exec i s) := by
  cases i with
  | ret =>
    by_cases hsp : 0 < s.sp.val
    · rw [exec_ret_of_occupied hsp, exec_ret_of_occupied (s := s.withInputs ins k) hsp]
      rfl
    · have hempty : s.sp.val = 0 := by omega
      rw [exec_ret_of_empty hempty, exec_ret_of_empty (s := s.withInputs ins k) hempty]
      rfl
  | call nnn =>
    by_cases hsp : s.sp.val < 16
    · rw [exec_call_of_free nnn hsp, exec_call_of_free (s := s.withInputs ins k) nnn hsp]
      rfl
    · have hfull : s.sp.val = 16 := by omega
      rw [exec_call_of_full nnn hfull, exec_call_of_full (s := s.withInputs ins k) nnn hfull]
      rfl
  | addReg _ _ | subReg _ _ | subnReg _ _ =>
    simp only [exec, execAddReg, execSubReg, execSubnReg, State.writeBack_withInputs]
    rfl
  | shrReg _ _ | shlReg _ _ =>
    simp only [exec, execShrReg, execShlReg, State.writeBack_withInputs]
    rfl
  | rnd x kk =>
    simp only [exec, execRnd, hrnd rfl]
    rfl
  | skp x =>
    simp only [exec, execSkp, hkeys rfl, State.withInputs_reg]
    split <;> rfl
  | sknp x =>
    simp only [exec, execSknp, hkeys rfl, State.withInputs_reg]
    split <;> rfl
  | ldVxK x =>
    simp only [exec, execLdVxK, hkeys rfl]
    rfl
  | drw x y n =>
    simp only [exec, execDrw, State.withInputs_i, State.withInputs_params, State.withInputs_reg,
      State.withInputs_loadBytes]
    cases accessHalt s.i.toNat n with
    | some r => rfl
    | none =>
      cases edgeTargets s.params.drawEdgeMode
        (spriteTargets (s.reg x).toNat (s.reg y).toNat (s.loadBytes s.i.toNat n)) <;> rfl
  | ldB x =>
    simp only [exec, execLdB, State.withInputs_i]
    cases accessHalt s.i.toNat 3 <;> rfl
  | storeRegs x =>
    simp only [exec, execStoreRegs, State.withInputs_i]
    cases accessHalt s.i.toNat (x.val + 1) <;> rfl
  | loadRegs x =>
    simp only [exec, execLoadRegs, State.withInputs_i]
    cases accessHalt s.i.toNat (x.val + 1) <;> rfl
  | _ => rfl

/-- Settles O25: with inputs that agree on what the instruction reads, its answer is the same but for the inputs. -/
theorem inputsReachOnlyTheirReaders : Obligations.InputsReachOnlyTheirReaders := by
  intro i s t ins k hkeys hrnd hexec
  have hmap : exec i (s.withInputs ins k) = mapNext (State.withInputs ins k) (exec i s) := exec_withInputs hkeys hrnd
  rw [hexec] at hmap
  exact hmap

end Sys2Proof.Machine
end

section
/-!
SUPPORT. Memory, the fetch, construction and the load: the laws of reads that the claims of 20_memory.md rest on, and one
equation per branch of the fetch, of a tick's start and of the load (20_memory.md R52, R56, R59, R60, R64, R66 to R68).
-/

namespace Sys2Proof.Machine

/-! ### The memory form -/

/-- The canonical form, cell by cell. -/
theorem Memory.wfFrom_cons_iff {lo k : Nat} {c : Byte} {m : Memory} :
    Memory.wfFrom lo ((k, c) :: m) = true ↔
      lo ≤ k ∧ k < Config.memSize ∧ c ≠ Memory.background k ∧ Memory.wfFrom (k + 1) m = true := by
  simp [Memory.wfFrom, and_assoc]

@[simp] theorem Memory.read_cons_self (k : Nat) (c : Byte) (m : Memory) : Memory.read ((k, c) :: m) k = c := by
  simp [Memory.read]

theorem Memory.read_cons_other {k a : Nat} (c : Byte) (m : Memory) (h : a ≠ k) :
    Memory.read ((k, c) :: m) a = m.read a := by
  simp [Memory.read, h]

/-- The first cell of a canonical memory is seen: a memory that lists no address so low reads something else there. -/
theorem Memory.read_ne_of_head_below {lo lo' k : Nat} {c : Byte} {m m' : Memory}
    (hm : Memory.wfFrom lo ((k, c) :: m) = true) (hm' : Memory.wfFrom lo' m' = true) (hk : k < lo') :
    Memory.read ((k, c) :: m) k ≠ m'.read k := by
  obtain ⟨_, _, hc, _⟩ := Memory.wfFrom_cons_iff.mp hm
  rwa [Memory.read_cons_self, Memory.read_below m' hm' hk]

/-- Canonical memories that start with cells of one address and read alike have tails that read alike. -/
theorem Memory.tails_read_alike {lo lo' k : Nat} {c c' : Byte} {m m' : Memory}
    (hm : Memory.wfFrom lo ((k, c) :: m) = true) (hm' : Memory.wfFrom lo' ((k, c') :: m') = true)
    (hread : ∀ a, Memory.read ((k, c) :: m) a = Memory.read ((k, c') :: m') a) (a : Nat) : m.read a = m'.read a := by
  obtain ⟨_, _, _, htail⟩ := Memory.wfFrom_cons_iff.mp hm
  obtain ⟨_, _, _, htail'⟩ := Memory.wfFrom_cons_iff.mp hm'
  by_cases ha : a = k
  · have hlow : a < k + 1 := by omega
    rw [Memory.read_below m htail hlow, Memory.read_below m' htail' hlow]
  · rw [← Memory.read_cons_other c m ha, ← Memory.read_cons_other c' m' ha]
    exact hread a

/-- Canonical memories are determined by their reads, from any lowest address on. -/
theorem Memory.eq_of_read_eq {lo lo' : Nat} {m m' : Memory} (hm : Memory.wfFrom lo m = true)
    (hm' : Memory.wfFrom lo' m' = true) (hread : ∀ a, m.read a = m'.read a) : m = m' := by
  induction m generalizing lo lo' m' with
  | nil =>
    cases m' with
    | nil => rfl
    | cons p m' =>
      obtain ⟨k', c'⟩ := p
      exact absurd (hread k').symm (Memory.read_ne_of_head_below hm' (lo' := k' + 1) rfl (Nat.lt_succ_self k'))
  | cons p m ih =>
    obtain ⟨k, c⟩ := p
    obtain ⟨_, hk, hc, htail⟩ := Memory.wfFrom_cons_iff.mp hm
    cases m' with
    | nil => exact absurd (hread k) (Memory.read_ne_of_head_below hm (lo' := k + 1) rfl (Nat.lt_succ_self k))
    | cons p' m' =>
      obtain ⟨k', c'⟩ := p'
      obtain ⟨_, hk', hc', htail'⟩ := Memory.wfFrom_cons_iff.mp hm'
      rcases Nat.lt_trichotomy k k' with hlt | rfl | hgt
      · have hfrom : Memory.wfFrom k' ((k', c') :: m') = true :=
          Memory.wfFrom_cons_iff.mpr ⟨le_refl k', hk', hc', htail'⟩
        exact absurd (hread k) (Memory.read_ne_of_head_below hm hfrom hlt)
      · have hcell : c = c' := by simpa using hread k
        rw [hcell, ih htail htail' (Memory.tails_read_alike hm hm' hread)]
      · have hfrom : Memory.wfFrom k ((k, c) :: m) = true := Memory.wfFrom_cons_iff.mpr ⟨le_refl k, hk, hc, htail⟩
        exact absurd (hread k').symm (Memory.read_ne_of_head_below hm' hfrom hgt)

/-- Outside the font an unlisted address reads 0 (log 4). -/
theorem Memory.background_of_font_le {a : Nat} (h : 80 ≤ a) : Memory.background a = 0 :=
  List.getD_eq_default defaultFont 0 h

/-- A memory into which one run of bytes was written from address 0 up reads as those bytes, and above them as before. -/
theorem Memory.read_writeBytes_nil {bs : List Byte} (h : bs.length ≤ Config.memSize) (a : Nat) :
    (Memory.writeBytes [] 0 bs).read a = bs.getD a (Memory.background a) := by
  by_cases ha : a < bs.length
  · have hin := Memory.read_writeBytes_inside bs [] 0 a Memory.nil_wf (by omega) ha
    rw [Nat.zero_add] at hin
    rw [hin, List.getD_eq_getElem _ _ ha]
  · rw [Memory.read_writeBytes_outside bs [] 0 a (by omega), List.getD_eq_default _ _ (by omega)]
    rfl

/-! ### The fetch and the start of a tick -/

/-- The fetch in range (R59). -/
theorem State.fetch_of_inside {s : State} (h : s.pc.toNat < 4095) : s.fetch = .ok (s.mem.opcodeAt s.pc.toNat) := by
  rcases s.fetch_cases with ⟨_, hf⟩ | ⟨hp, _⟩ | ⟨hp, _⟩
  · exact hf
  · omega
  · omega

/-- The fetch whose second byte would lie outside the memory (R60, D5). -/
theorem State.fetch_of_last {s : State} (h : s.pc.toNat = 4095) : s.fetch = .error (.fetchOutOfRange s.pc) := by
  rcases s.fetch_cases with ⟨hp, _⟩ | ⟨_, hf⟩ | ⟨hp, _⟩
  · omega
  · exact hf
  · omega

/-- The fetch from outside the memory (R60). -/
theorem State.fetch_of_outside {s : State} (h : 4096 ≤ s.pc.toNat) : s.fetch = .error (.pcOutOfRange s.pc) := by
  rcases s.fetch_cases with ⟨hp, _⟩ | ⟨hp, _⟩ | ⟨_, hf⟩
  · omega
  · omega
  · exact hf

/-- The word at an address, as a number (R57, R59). -/
theorem Memory.toNat_opcodeAt (m : Memory) (a : Nat) :
    (m.opcodeAt a).toNat = (m.read a).toNat * 256 + (m.read (a + 1)).toNat :=
  toNat_opcodeOfBytes _ _

/-- A fetch in range, as a number. -/
theorem State.fetch_toNat {s : State} (h : s.pc.toNat < 4095) :
    ∃ op : Word, s.fetch = .ok op ∧
      op.toNat = (s.mem.read s.pc.toNat).toNat * 256 + (s.mem.read (s.pc.toNat + 1)).toNat :=
  ⟨_, State.fetch_of_inside h, Memory.toNat_opcodeAt _ _⟩

/-- A fetch from an address in range, as a number. -/
theorem State.fetch_at (s : State) {a : Nat} (h : a < 4095) :
    ∃ op : Word, State.fetch { s with pc := BitVec.ofNat 16 a } = .ok op ∧
      op.toNat = (s.mem.read a).toNat * 256 + (s.mem.read (a + 1)).toNat := by
  have hpc : (BitVec.ofNat 16 a).toNat = a := Nat.mod_eq_of_lt (by omega)
  simpa only [hpc] using State.fetch_toNat (s := { s with pc := BitVec.ofNat 16 a }) (by rw [hpc]; exact h)

/-- Fetch and decode halt where the fetch does. -/
theorem State.fetchInstr_of_fetch_error {s : State} {r : HaltReason} (h : s.fetch = .error r) :
    s.fetchInstr = .error r := by
  unfold State.fetchInstr
  rw [h]

/-- A tick whose fetch or decode halts ends there (R131, R135). -/
theorem step_of_fetchInstr_error {s : State} {r : HaltReason} (hready : s.Ready)
    (h : s.beginTick.fetchInstr = .error r) : step s = .next (s.beginTick.takeHalt r) := by
  obtain ⟨hrun, hloaded⟩ := hready
  simp only [step, hrun, hloaded, h, halt]

/-- Taking a halt writes the run state and the output list only (R134). -/
theorem State.onlyHalted_takeHalt (s : State) (r : HaltReason) : s.OnlyHalted (s.takeHalt r) r :=
  ⟨rfl, fun _ => rfl⟩

/-- A tick whose fetch halts does nothing else. -/
theorem step_of_fetch_error {s : State} {r : HaltReason} (hready : s.Ready) (h : s.beginTick.fetch = .error r) :
    ∃ t, step s = .next t ∧ s.beginTick.OnlyHalted t r :=
  ⟨_, step_of_fetchInstr_error hready (State.fetchInstr_of_fetch_error h), State.onlyHalted_takeHalt _ r⟩

/-! ### Fx55 -/

/-- Fx55 whose whole block lies inside the memory (42_index_memory.md R114). -/
theorem exec_storeRegs_of_inside {s : State} {x : RegIdx} (h : s.i.toNat + x.val < 4096) :
    exec (.storeRegs x) s =
      .next ((s.storeBytes s.i.toNat (s.registerBlock x)).setIndex (s.indexAfterBlock x)).advance := by
  simp only [exec, execStoreRegs, accessHalt_none_of s.i.toNat (x.val + 1) (.inr h)]

/-- The k-th byte of the stored block is V[k]. -/
theorem State.getElem_registerBlock (s : State) (x k : RegIdx) (h : k.val < (s.registerBlock x).length) :
    (s.registerBlock x)[k.val] = s.reg k := by
  simp [State.registerBlock, State.reg]

/-- After Fx55 the byte at I + k is V[k], for every k up to x. -/
theorem State.read_storeBytes_registerBlock {s : State} {x k : RegIdx} (hm : s.MemoryWf)
    (hin : s.i.toNat + x.val < 4096) (hk : k.val ≤ x.val) :
    (s.mem.writeBytes s.i.toNat (s.registerBlock x)).read (s.i.toNat + k.val) = s.reg k := by
  have hlen := s.length_registerBlock x
  have hfits : s.i.toNat + (s.registerBlock x).length ≤ Config.memSize := by rw [hlen]; exact hin
  have hklen : k.val < (s.registerBlock x).length := by omega
  rw [Memory.read_writeBytes_inside _ _ _ k.val hm hfits hklen, State.getElem_registerBlock]

/-! ### Construction and load -/

/-- What construction leaves in memory: the font, and above it the initial bytes (R66; 10_state.md R50). -/
theorem State.construct_mem (l : Launch) : (State.construct l).mem =
    (Memory.writeBytes [] 0 (l.initMem.take Config.memSize)).writeBytes 0 l.font.toList := rfl

/-- The font stands at 0x000 to 0x04F, over the initial memory (R66). -/
theorem State.construct_read_font (l : Launch) (k : Fin 80) : (State.construct l).mem.read k.val = l.font[k] := by
  have hwf : (Memory.writeBytes [] 0 (l.initMem.take Config.memSize)).wf = true :=
    Memory.writeBytes_wf _ _ _ Memory.nil_wf (by simp)
  have hread := Memory.read_writeBytes_inside l.font.toList _ 0 k.val hwf (by simp [Config.memSize]) (by simp)
  rw [Nat.zero_add] at hread
  rw [State.construct_mem, hread]
  simp

/-- Above the font construction leaves the initial memory, which is 0 past its end (10_state.md R50, log 4). -/
theorem State.construct_read_above (l : Launch) {a : Nat} (hfont : 80 ≤ a) (ha : a < 4096) :
    (State.construct l).mem.read a = l.initMem.getD a 0 := by
  have hlen : (l.initMem.take Config.memSize).length ≤ Config.memSize := by simp
  rw [State.construct_mem, Memory.read_writeBytes_outside _ _ _ _ (.inr (by simpa using hfont)),
    Memory.read_writeBytes_nil hlen, Memory.background_of_font_le hfont]
  simp [List.getD_eq_getElem?_getD, ha]

/-- A second load (R68, D28). -/
theorem State.loadProgram_of_loaded {s : State} (bytes : List Byte) (h : s.loaded = true) :
    s.loadProgram bytes = .refused .programAlreadyLoaded := by
  simp [State.loadProgram, h]

/-- A load of a program that is too long (R67). -/
theorem State.loadProgram_of_tooLarge {s : State} {bytes : List Byte} (h : s.loaded = false)
    (hlen : Config.maxProgram < bytes.length) : s.loadProgram bytes = .rejected bytes.length := by
  simp [State.loadProgram, h, hlen]

/-- A load of a program that fits (R67). -/
theorem State.loadProgram_of_fits {s : State} {bytes : List Byte} (h : s.loaded = false)
    (hlen : bytes.length ≤ Config.maxProgram) :
    s.loadProgram bytes = .accepted { s with mem := s.mem.writeBytes Config.loadBase bytes, loaded := true } := by
  simp [State.loadProgram, h, Nat.not_lt.mpr hlen]

/-- An accepted load found the block not loaded, and the program fits. -/
theorem State.loadProgram_accepted {s t : State} {bytes : List Byte} (h : s.loadProgram bytes = .accepted t) :
    bytes.length ≤ Config.maxProgram ∧ t = { s with mem := s.mem.writeBytes Config.loadBase bytes, loaded := true } := by
  cases hloaded : s.loaded with
  | true =>
    rw [State.loadProgram_of_loaded bytes hloaded] at h
    cases h
  | false =>
    by_cases hlen : bytes.length ≤ Config.maxProgram
    · rw [State.loadProgram_of_fits hloaded hlen] at h
      cases h
      exact ⟨hlen, rfl⟩
    · rw [State.loadProgram_of_tooLarge hloaded (Nat.not_le.mp hlen)] at h
      cases h

/-- A program that fits in a load ends inside the memory. -/
theorem loadBase_add_length_le {bytes : List Byte} (h : bytes.length ≤ Config.maxProgram) :
    Config.loadBase + bytes.length ≤ Config.memSize := by
  simp only [Config.loadBase, Config.maxProgram, Config.memSize] at h ⊢
  omega

/-! ### The claims -/

/-- Settles O19: the program ends inside the memory, and the load writes nothing else that the invariant looks at. -/
theorem loadKeepsTheInvariant : Obligations.LoadKeepsTheInvariant := by
  intro s t bytes hinv hload
  obtain ⟨hlen, rfl⟩ := State.loadProgram_accepted hload
  obtain ⟨hm, hret, hpc⟩ := hinv
  exact ⟨Memory.writeBytes_wf bytes s.mem _ hm (loadBase_add_length_le hlen), hret, hpc⟩

/-- Settles O20, by induction on the first list: the lower of two first cells is seen by a read. -/
theorem canonicalMemoriesAreDeterminedByReads : Obligations.CanonicalMemoriesAreDeterminedByReads := by
  intro m m' hm hm' hread
  exact Memory.eq_of_read_eq hm hm' hread

/-- Settles O21: a halt writes no memory, and an instruction that goes on keeps to its frame. -/
theorem onlyTheStoresWriteMemory : Obligations.OnlyTheStoresWriteMemory := by
  intro i s t hldB hstore hexec
  have hmem : t.mem = s.mem := by
    rcases exec_next_cases hexec with ⟨r, rfl⟩ | hgo
    · rfl
    · exact hgo.frame.mem hldB hstore
  exact ⟨hmem, fun a => by rw [hmem]⟩

/-- Settles O50: the bytes at I + k and I + k + 1 are V[k] and the register after it, and the fetch reads them as a word. -/
theorem fetchSeesTheStoredBlock : Obligations.FetchSeesTheStoredBlock := by
  intro s t x k k' hm hin hnext hle hexec
  have hmem : t.mem = s.mem.writeBytes s.i.toNat (s.registerBlock x) := by
    rw [exec_storeRegs_of_inside hin] at hexec
    cases hexec
    simp
  have hk := State.read_storeBytes_registerBlock (k := k) hm hin (by omega)
  have hk' := State.read_storeBytes_registerBlock (k := k') hm hin hle
  obtain ⟨op, hfetch, hop⟩ := t.fetch_at (a := s.i.toNat + k.val) (by omega)
  refine ⟨op, hfetch, ?_⟩
  rw [hop, hmem, hk, Nat.add_assoc, ← hnext, hk']

/-- Settles O6: the fetch in range, its word as a number. -/
theorem fetchReadsBigEndianWordAtPc : Obligations.FetchReadsBigEndianWordAtPc := by
  intro s hpc
  exact State.fetch_toNat hpc

/-- Settles O8: the fetch reports the halt, and the tick ends with it. -/
theorem fetchOutsideMemoryHalts : Obligations.FetchOutsideMemoryHalts := by
  intro s hready
  refine ⟨fun hout => ?_, fun hlast => ?_⟩
  · exact step_of_fetch_error hready (State.fetch_of_outside (s := s.beginTick) hout)
  · exact step_of_fetch_error hready (State.fetch_of_last (s := s.beginTick) hlast)

/-- Settles O11: a tick looks at the loaded mark before it fetches, and a load before it writes. -/
theorem unloadedTickAndSecondLoadAreRefused : Obligations.UnloadedTickAndSecondLoadAreRefused := by
  intro s bytes
  refine ⟨fun hrun hloaded => ?_, State.loadProgram_of_loaded bytes⟩
  simp only [step, hrun, hloaded]

/-- Settles O59: the font is written last, over the initial memory, and the other fields are the launch's or reset's. -/
theorem constructionTakesTheLaunchParameters : Obligations.ConstructionTakesTheLaunchParameters := by
  intro l
  refine ⟨State.construct_read_font l, fun a hfont ha => State.construct_read_above l hfont ha, ?_⟩
  exact ⟨rfl, rfl, rfl, fun _ => rfl, rfl, rfl, rfl, rfl⟩

/-- Settles O60: the length decides, and a program that fits is written from 0x200 up. -/
theorem loadPlacesTheProgramOrRejectsIt : Obligations.LoadPlacesTheProgramOrRejectsIt := by
  intro s bytes hloaded hm
  refine ⟨fun hlen => ⟨_, State.loadProgram_of_fits hloaded hlen, rfl, rfl, fun k hk => ?_, fun a ha => ?_⟩,
    fun hlen => State.loadProgram_of_tooLarge hloaded hlen⟩
  · exact Memory.read_writeBytes_inside bytes s.mem 0x200 k hm (loadBase_add_length_le hlen) hk
  · exact Memory.read_writeBytes_outside bytes s.mem 0x200 a ha

end Sys2Proof.Machine
end

section
/-!
SUPPORT. Decoder and encoder, said once: the fields of an encoded word, a word put together again from its fields, what
the decoder gives back when it decodes and when it does not, and what a word in a row of the opcode table shows the
decoder (30_encoding.md R71 to R78).
-/

namespace Sys2Proof

open Config (ZeroFamilyDecode)

/-! ### The fields that the decoder reads from an encoded word -/

@[simp] theorem opFamily_encodeNNN (t : BitVec 4) (a : Addr12) : opFamily (encodeNNN t a) = t.toNat :=
  congrArg BitVec.toNat (encodeNNN_fields t a).1

@[simp] theorem opNNN_encodeNNN (t : BitVec 4) (a : Addr12) : opNNN (encodeNNN t a) = a :=
  (encodeNNN_fields t a).2

@[simp] theorem opFamily_encodeXKK (t : BitVec 4) (x : RegIdx) (kk : Byte) : opFamily (encodeXKK t x kk) = t.toNat :=
  congrArg BitVec.toNat (encodeXKK_fields t x kk).1

@[simp] theorem opX_encodeXKK (t : BitVec 4) (x : RegIdx) (kk : Byte) : opX (encodeXKK t x kk) = x :=
  Fin.ext ((congrArg BitVec.toNat (encodeXKK_fields t x kk).2.1).trans (regField_toNat x))

@[simp] theorem opKK_encodeXKK (t : BitVec 4) (x : RegIdx) (kk : Byte) : opKK (encodeXKK t x kk) = kk :=
  (encodeXKK_fields t x kk).2.2

@[simp] theorem opFamily_encodeXYN (t : BitVec 4) (x y : RegIdx) (n : BitVec 4) :
    opFamily (encodeXYN t x y n) = t.toNat :=
  congrArg BitVec.toNat (encodeXYN_fields t x y n).1

@[simp] theorem opX_encodeXYN (t : BitVec 4) (x y : RegIdx) (n : BitVec 4) : opX (encodeXYN t x y n) = x :=
  Fin.ext ((congrArg BitVec.toNat (encodeXYN_fields t x y n).2.1).trans (regField_toNat x))

@[simp] theorem opY_encodeXYN (t : BitVec 4) (x y : RegIdx) (n : BitVec 4) : opY (encodeXYN t x y n) = y :=
  Fin.ext ((congrArg BitVec.toNat (encodeXYN_fields t x y n).2.2.1).trans (regField_toNat y))

@[simp] theorem opN_encodeXYN (t : BitVec 4) (x y : RegIdx) (n : BitVec 4) : opN (encodeXYN t x y n) = n.toNat :=
  congrArg BitVec.toNat (encodeXYN_fields t x y n).2.2.2

/-- The decoder undoes the encoder (R72 to R74): every field of the encoded word is the operand or the selector put
there, and a row count of at most 15 fits its field. -/
theorem decode_encode (z : ZeroFamilyDecode) {i : Instr} (h : i.WellFormed) : decode z (encode i) = .ok i := by
  cases i with
  | cls | ret => cases z <;> rfl
  | jp nnn | call nnn | ldI nnn | jpV0 nnn => simp [encode, decode]
  | seByte x kk | sneByte x kk | ldByte x kk | addByte x kk | rnd x kk => simp [encode, decode]
  | seReg x y | sneReg x y => simp [encode, decode]
  | ldReg x y | orReg x y | andReg x y | xorReg x y | addReg x y | subReg x y | shrReg x y | subnReg x y | shlReg x y =>
    simp [encode, decode, decodeFamily8]
  | drw x y n =>
    have hn : n ≤ 15 := of_decide_eq_true h
    simp [encode, decode, Nat.mod_eq_of_lt (Nat.lt_succ_of_le hn)]
  | skp x | sknp x => simp [encode, decode, decodeFamilyE]
  | ldVxDt x | ldVxK x | ldDtVx x | ldStVx x | addI x | ldF x | ldB x | storeRegs x | loadRegs x =>
    simp [encode, decode, decodeFamilyF]

/-! ### A word put together again from its fields -/

/-- The field of a register operand holds op[11:8]. -/
theorem regField_opX (op : Word) : regField (opX op) = op.extractLsb' 8 4 :=
  BitVec.eq_of_toNat_eq (regField_toNat _)

/-- The field of the second register operand holds op[7:4]. -/
theorem regField_opY (op : Word) : regField (opY op) = op.extractLsb' 4 4 :=
  BitVec.eq_of_toNat_eq (regField_toNat _)

theorem encodeNNN_of_fields {t : BitVec 4} {op : Word} (ht : opFamily op = t.toNat) : encodeNNN t (opNNN op) = op := by
  obtain rfl : op.extractLsb' 12 4 = t := BitVec.eq_of_toNat_eq ht
  apply BitVec.eq_of_getLsbD_eq
  intro i hi
  interval_cases i <;> simp [encodeNNN, nibbleAt, opNNN]

theorem encodeXKK_of_fields {t : BitVec 4} {op : Word} (ht : opFamily op = t.toNat) :
    encodeXKK t (opX op) (opKK op) = op := by
  obtain rfl : op.extractLsb' 12 4 = t := BitVec.eq_of_toNat_eq ht
  apply BitVec.eq_of_getLsbD_eq
  intro i hi
  interval_cases i <;> simp [encodeXKK, nibbleAt, regField_opX, opKK]

theorem encodeXYN_of_fields {t n : BitVec 4} {op : Word} (ht : opFamily op = t.toNat) (hn : opN op = n.toNat) :
    encodeXYN t (opX op) (opY op) n = op := by
  obtain rfl : op.extractLsb' 12 4 = t := BitVec.eq_of_toNat_eq ht
  obtain rfl : op.extractLsb' 0 4 = n := BitVec.eq_of_toNat_eq hn
  apply BitVec.eq_of_getLsbD_eq
  intro i hi
  interval_cases i <;> simp [encodeXYN, nibbleAt, regField_opX, regField_opY]

/-- Format X: the low byte is the selector. -/
theorem encodeXKK_of_selector {t : BitVec 4} {kk : Byte} {op : Word} (ht : opFamily op = t.toNat)
    (hk : (opKK op).toNat = kk.toNat) : encodeXKK t (opX op) kk = op := by
  obtain rfl : opKK op = kk := BitVec.eq_of_toNat_eq hk
  exact encodeXKK_of_fields ht

/-- Format XY with an ignored low nibble (R78): the word is the encoded one but for those bits. -/
theorem encodeXYN_of_ignored {t n : BitVec 4} {op : Word} (ht : opFamily op = t.toNat) :
    encodeXYN t (opX op) (opY op) n &&& 0xFFF0#16 = op &&& 0xFFF0#16 := by
  obtain rfl : op.extractLsb' 12 4 = t := BitVec.eq_of_toNat_eq ht
  apply BitVec.eq_of_getLsbD_eq
  intro i hi
  interval_cases i <;> simp [encodeXYN, nibbleAt, regField_opX, regField_opY]

/-! ### What a masked word shows of the fields -/

/-- The mask 0xF00F shows the low nibble. -/
theorem opN_of_and {op p : Word} (h : op &&& 0xF00F#16 = p) : opN op = p.toNat % 16 := by
  rw [← h, ← opN_eq, opN, opN, BitVec.extractLsb'_and]
  exact congrArg BitVec.toNat BitVec.and_allOnes.symm

/-- The mask 0xF0FF shows the low byte. -/
theorem opKK_of_and {op p : Word} (h : op &&& 0xF0FF#16 = p) : (opKK op).toNat = p.toNat % 256 := by
  rw [← h, ← toNat_opKK, opKK, opKK, BitVec.extractLsb'_and]
  exact congrArg BitVec.toNat BitVec.and_allOnes.symm

/-- The family and the low nibble are all that the mask 0xF00F leaves of a word. -/
theorem and_F00F_eq_of_fields {op : Word} {t n : BitVec 4} (ht : opFamily op = t.toNat) (hn : opN op = n.toNat) :
    op &&& 0xF00F#16 = nibbleAt 12 t ||| nibbleAt 0 n := by
  rw [← encodeXYN_of_fields ht hn, Laws.encodeXYN_selector]

/-- Every row of the opcode table selects on the family. -/
theorem extractLsb'_opcodeMask (z : ZeroFamilyDecode) (i : Instr) :
    (opcodeMask z i).extractLsb' 12 4 = BitVec.allOnes 4 := by
  cases z <;> cases i <;> simp [opcodeMask]

/-- A row's pattern shows the family of every word in the row. -/
theorem opFamily_of_row {z : ZeroFamilyDecode} {op : Word} {i : Instr} (h : op &&& opcodeMask z i = opcodePattern z i) :
    opFamily op = (opcodePattern z i).toNat / 4096 := by
  rw [← opFamily_eq, ← h, opFamily, opFamily, BitVec.extractLsb'_and, extractLsb'_opcodeMask, BitVec.and_allOnes]

/-! ### The decode tree by family (R74) -/

/-- The families by how they decode (R72, R74): family 0; the four of format NNN; the five of format XKK; the two that
ignore their low nibble; the selecting families 8, E and F; and the draw. -/
theorem opFamily_cases (op : Word) :
    opFamily op = 0x0 ∨ (opFamily op = 0x1 ∨ opFamily op = 0x2 ∨ opFamily op = 0xA ∨ opFamily op = 0xB) ∨
    (opFamily op = 0x3 ∨ opFamily op = 0x4 ∨ opFamily op = 0x6 ∨ opFamily op = 0x7 ∨ opFamily op = 0xC) ∨
    (opFamily op = 0x5 ∨ opFamily op = 0x9) ∨ opFamily op = 0x8 ∨ opFamily op = 0xD ∨ opFamily op = 0xE ∨
    opFamily op = 0xF := by
  have := op.isLt
  rw [opFamily_eq]
  omega

theorem decode_of_family0 {op : Word} (z : ZeroFamilyDecode) (h : opFamily op = 0x0) :
    decode z op = decodeFamily0 z op := by
  simp only [decode, h]

theorem decode_of_family8 {op : Word} (z : ZeroFamilyDecode) (h : opFamily op = 0x8) :
    decode z op = decodeFamily8 op := by
  simp only [decode, h]

theorem decode_of_familyE {op : Word} (z : ZeroFamilyDecode) (h : opFamily op = 0xE) :
    decode z op = decodeFamilyE op := by
  simp only [decode, h]

theorem decode_of_familyF {op : Word} (z : ZeroFamilyDecode) (h : opFamily op = 0xF) :
    decode z op = decodeFamilyF op := by
  simp only [decode, h]

/-! ### Words that decode -/

/-- A family 0 word that decodes is its instruction's word on the bits that select (R74, D2). -/
theorem decodeFamily0_ok {z : ZeroFamilyDecode} {op : Word} {i : Instr} (hf : opFamily op = 0x0)
    (h : decodeFamily0 z op = .ok i) :
    i.WellFormed ∧ encode i &&& opcodeReadBits z i = op &&& opcodeReadBits z i := by
  cases z with
  | lowNibble =>
    simp only [decodeFamily0] at h
    split at h <;> rename_i hn <;> cases h
    · exact ⟨rfl, (and_F00F_eq_of_fields (t := 0x0) (n := 0x0) hf hn).symm⟩
    · exact ⟨rfl, (and_F00F_eq_of_fields (t := 0x0) (n := 0xE) hf hn).symm⟩
  | exact =>
    simp only [decodeFamily0] at h
    split_ifs at h with h0 hE <;> cases h
    · exact ⟨rfl, by rw [h0]; rfl⟩
    · exact ⟨rfl, by rw [hE]; rfl⟩

/-- A family 8 word that decodes is its instruction's word. -/
theorem decodeFamily8_ok {op : Word} {i : Instr} (hf : opFamily op = 0x8) (h : decodeFamily8 op = .ok i) :
    i.WellFormed ∧ encode i = op := by
  unfold decodeFamily8 at h
  split at h <;> rename_i hn <;> cases h <;> exact ⟨rfl, encodeXYN_of_fields hf hn⟩

/-- A family E word that decodes is its instruction's word. -/
theorem decodeFamilyE_ok {op : Word} {i : Instr} (hf : opFamily op = 0xE) (h : decodeFamilyE op = .ok i) :
    i.WellFormed ∧ encode i = op := by
  unfold decodeFamilyE at h
  split at h <;> rename_i hk <;> cases h <;> exact ⟨rfl, encodeXKK_of_selector hf hk⟩

/-- A family F word that decodes is its instruction's word. -/
theorem decodeFamilyF_ok {op : Word} {i : Instr} (hf : opFamily op = 0xF) (h : decodeFamilyF op = .ok i) :
    i.WellFormed ∧ encode i = op := by
  unfold decodeFamilyF at h
  split at h <;> rename_i hk <;> cases h <;> exact ⟨rfl, encodeXKK_of_selector hf hk⟩

/-- What the decoder gives back is well formed, and its word is the decoded one on every bit that is read (R78): a
word is made of its fields. -/
theorem decode_ok {z : ZeroFamilyDecode} {op : Word} {i : Instr} (h : decode z op = .ok i) :
    i.WellFormed ∧ encode i &&& opcodeReadBits z i = op &&& opcodeReadBits z i := by
  have hwhole : i.WellFormed ∧ encode i = op →
      i.WellFormed ∧ encode i &&& opcodeReadBits z i = op &&& opcodeReadBits z i :=
    fun ⟨hwf, he⟩ => ⟨hwf, by rw [he]⟩
  rcases opFamily_cases op with h0 | hNNN | hXKK | hXY | h8 | hD | hE | hF
  · exact decodeFamily0_ok h0 (decode_of_family0 z h0 ▸ h)
  · rcases hNNN with hf | hf | hf | hf <;> simp only [decode, hf] at h <;> cases h <;>
      exact hwhole ⟨rfl, encodeNNN_of_fields hf⟩
  · rcases hXKK with hf | hf | hf | hf | hf <;> simp only [decode, hf] at h <;> cases h <;>
      exact hwhole ⟨rfl, encodeXKK_of_fields hf⟩
  · rcases hXY with hf | hf <;> simp only [decode, hf] at h <;> cases h <;> exact ⟨rfl, encodeXYN_of_ignored hf⟩
  · exact hwhole (decodeFamily8_ok h8 (decode_of_family8 z h8 ▸ h))
  · simp only [decode, hD] at h
    cases h
    have hn : opN op ≤ 15 := Nat.le_of_lt_succ (op.extractLsb' 0 4).isLt
    exact hwhole ⟨decide_eq_true hn, encodeXYN_of_fields hD (by simp [opN])⟩
  · exact hwhole (decodeFamilyE_ok hE (decode_of_familyE z hE ▸ h))
  · exact hwhole (decodeFamilyF_ok hF (decode_of_familyF z hF ▸ h))

/-! ### Words in a row of the opcode table -/

/-- A word in a row of the table decodes to an instruction of that row: the mask holds every field that the decoder
selects on, so the pattern says which branch it takes. -/
theorem decode_of_row {z : ZeroFamilyDecode} {op : Word} {i : Instr} (h : op &&& opcodeMask z i = opcodePattern z i) :
    ∃ j : Instr, decode z op = .ok j ∧ opcodeMask z j = opcodeMask z i ∧ opcodePattern z j = opcodePattern z i := by
  have hf := opFamily_of_row h
  cases i with
  | cls | ret =>
    cases z with
    | lowNibble => simp [decode, hf, decodeFamily0, opN_of_and h, opcodeMask, opcodePattern]
    | exact =>
      obtain rfl : op = opcodePattern .exact _ := BitVec.and_allOnes.symm.trans h
      exact ⟨_, rfl, rfl, rfl⟩
  | jp nnn | call nnn | ldI nnn | jpV0 nnn => simp [decode, hf, opcodeMask, opcodePattern]
  | seByte x kk | sneByte x kk | ldByte x kk | addByte x kk | rnd x kk => simp [decode, hf, opcodeMask, opcodePattern]
  | seReg x y | sneReg x y | drw x y n => simp [decode, hf, opcodeMask, opcodePattern]
  | ldReg x y | orReg x y | andReg x y | xorReg x y | addReg x y | subReg x y | shrReg x y | subnReg x y | shlReg x y =>
    simp [decode, hf, decodeFamily8, opN_of_and h, opcodeMask, opcodePattern]
  | skp x | sknp x => simp [decode, hf, decodeFamilyE, opKK_of_and h, opcodeMask, opcodePattern]
  | ldVxDt x | ldVxK x | ldDtVx x | ldStVx x | addI x | ldF x | ldB x | storeRegs x | loadRegs x =>
    simp [decode, hf, decodeFamilyF, opKK_of_and h, opcodeMask, opcodePattern]

/-- The encoder writes each instruction's word in its own row (R72), for all instructions at once. -/
theorem encode_fitsRow (z : ZeroFamilyDecode) (i : Instr) : encode i &&& opcodeMask z i = opcodePattern z i := by
  cases i with
  | cls => exact Laws.EncodingFitsRow.cls rfl z
  | ret => exact Laws.EncodingFitsRow.ret rfl z
  | jp nnn | call nnn | ldI nnn | jpV0 nnn => exact Laws.encodeNNN_family _ nnn
  | seByte x kk | sneByte x kk | ldByte x kk | addByte x kk | rnd x kk => exact Laws.encodeXKK_family _ x kk
  | seReg x y | sneReg x y | drw x y n => exact Laws.encodeXYN_family _ x y _
  | ldReg x y | orReg x y | andReg x y | xorReg x y | addReg x y | subReg x y | shrReg x y | subnReg x y | shlReg x y =>
    exact Laws.encodeXYN_selector _ x y _
  | skp x | sknp x => exact Laws.encodeXKK_selector _ x _
  | ldVxDt x | ldVxK x | ldDtVx x | ldStVx x | addI x | ldF x | ldB x | storeRegs x | loadRegs x =>
    exact Laws.encodeXKK_selector _ x _

/-- The bits that select are among those that are read. -/
theorem opcodeReadBits_and_opcodeMask (z : ZeroFamilyDecode) (i : Instr) :
    opcodeReadBits z i &&& opcodeMask z i = opcodeMask z i := by
  cases i with
  | cls | ret => exact BitVec.and_self
  | seReg x y | sneReg x y =>
    show 0xFFF0#16 &&& 0xF000#16 = 0xF000#16
    decide
  | _ => exact BitVec.allOnes_and

/-- A word that decodes lies in its instruction's row. -/
theorem and_opcodeMask_of_decode {z : ZeroFamilyDecode} {op : Word} {i : Instr} (h : decode z op = .ok i) :
    op &&& opcodeMask z i = opcodePattern z i := by
  obtain ⟨_, hread⟩ := decode_ok h
  calc op &&& opcodeMask z i
      = op &&& opcodeReadBits z i &&& opcodeMask z i := by rw [BitVec.and_assoc, opcodeReadBits_and_opcodeMask]
    _ = encode i &&& opcodeReadBits z i &&& opcodeMask z i := by rw [hread]
    _ = encode i &&& opcodeMask z i := by rw [BitVec.and_assoc, opcodeReadBits_and_opcodeMask]
    _ = opcodePattern z i := encode_fitsRow z i

/-! ### Words that do not decode -/

/-- Family 0: the words that R74 leaves over, under either reading (R76, D2). -/
theorem decodeFamily0_error_iff {z : ZeroFamilyDecode} {op : Word} {e : DecodeError} :
    decodeFamily0 z op = .error e ↔ .unknownOpcode op = e ∧
      ((z = .lowNibble ∧ op.toNat % 16 ≠ 0x0 ∧ op.toNat % 16 ≠ 0xE) ∨
        (z = .exact ∧ op.toNat ≠ 0x00E0 ∧ op.toNat ≠ 0x00EE)) := by
  cases z with
  | lowNibble =>
    simp only [decodeFamily0]
    split <;> simp_all [opN_eq]
  | exact =>
    simp only [decodeFamily0, BitVec.toNat_eq]
    split_ifs <;> simp_all

/-- Family 8: the seven low nibbles that select nothing are those outside the nine that do (R76). -/
theorem decodeFamily8_error_iff {op : Word} {e : DecodeError} :
    decodeFamily8 op = .error e ↔
      .unknownOpcode op = e ∧ op.toNat % 16 ∈ [0x8, 0x9, 0xA, 0xB, 0xC, 0xD, 0xF] := by
  have hrest : op.toNat % 16 ∈ [0x8, 0x9, 0xA, 0xB, 0xC, 0xD, 0xF] ↔
      op.toNat % 16 ∉ [0x0, 0x1, 0x2, 0x3, 0x4, 0x5, 0x6, 0x7, 0xE] := by
    simp only [List.mem_cons, List.not_mem_nil, or_false]
    omega
  rw [hrest, decodeFamily8, opN_eq]
  split <;> simp_all

/-- Family E: every low byte but the two selectors (R76, D3). -/
theorem decodeFamilyE_error_iff {op : Word} {e : DecodeError} :
    decodeFamilyE op = .error e ↔ .unknownOpcode op = e ∧ op.toNat % 256 ∉ [0x9E, 0xA1] := by
  unfold decodeFamilyE
  rw [toNat_opKK]
  split <;> simp_all

/-- Family F: every low byte but the nine selectors (R76). -/
theorem decodeFamilyF_error_iff {op : Word} {e : DecodeError} :
    decodeFamilyF op = .error e ↔
      .unknownOpcode op = e ∧ op.toNat % 256 ∉ [0x07, 0x0A, 0x15, 0x18, 0x1E, 0x29, 0x33, 0x55, 0x65] := by
  unfold decodeFamilyF
  rw [toNat_opKK]
  split <;> simp_all

/-- The words of R76's table, row by row. -/
def UnknownWord (z : ZeroFamilyDecode) (op : Word) : Prop :=
  (op.toNat / 4096 = 0x0 ∧ z = .lowNibble ∧ op.toNat % 16 ≠ 0x0 ∧ op.toNat % 16 ≠ 0xE) ∨
  (op.toNat / 4096 = 0x0 ∧ z = .exact ∧ op.toNat ≠ 0x00E0 ∧ op.toNat ≠ 0x00EE) ∨
  (op.toNat / 4096 = 0x8 ∧ op.toNat % 16 ∈ [0x8, 0x9, 0xA, 0xB, 0xC, 0xD, 0xF]) ∨
  (op.toNat / 4096 = 0xE ∧ op.toNat % 256 ∉ [0x9E, 0xA1]) ∨
  (op.toNat / 4096 = 0xF ∧ op.toNat % 256 ∉ [0x07, 0x0A, 0x15, 0x18, 0x1E, 0x29, 0x33, 0x55, 0x65])

/-- The decoder rejects the words of R76's table only, and always by the word itself (R75). -/
theorem decode_error_iff {z : ZeroFamilyDecode} {op : Word} {e : DecodeError} :
    decode z op = .error e ↔ .unknownOpcode op = e ∧ UnknownWord z op := by
  unfold UnknownWord
  rw [← opFamily_eq]
  rcases opFamily_cases op with h0 | hNNN | hXKK | hXY | h8 | hD | hE | hF
  · rw [decode_of_family0 z h0, decodeFamily0_error_iff]
    simp [h0]
  · rcases hNNN with hf | hf | hf | hf <;> simp [decode, hf]
  · rcases hXKK with hf | hf | hf | hf | hf <;> simp [decode, hf]
  · rcases hXY with hf | hf <;> simp [decode, hf]
  · rw [decode_of_family8 z h8, decodeFamily8_error_iff]
    simp [h8]
  · simp [decode, hD]
  · rw [decode_of_familyE z hE, decodeFamilyE_error_iff]
    simp [hE]
  · rw [decode_of_familyF z hF, decodeFamilyF_error_iff]
    simp [hF]

end Sys2Proof

namespace Sys2Proof.Machine

/-- Fetch and decode halt on a word that does not decode, and the halt carries the word (R75). -/
theorem State.fetchInstr_of_decode_error {s : State} {e : DecodeError} (hpc : s.pc.toNat < 4095)
    (h : decode s.params.zeroFamilyDecode (s.mem.opcodeAt s.pc.toNat) = .error e) :
    s.fetchInstr = .error (.unknownOpcode (s.mem.opcodeAt s.pc.toNat)) := by
  simp only [State.fetchInstr, State.fetch_of_inside hpc, h]

/-! ### The claims -/

/-- Settles O1: each field of an encoded word is what the encoder put there. -/
theorem decodeOfEncodeIsIdentity : Obligations.DecodeOfEncodeIsIdentity := by
  intro z i h
  exact decode_encode z h

/-- Settles O2: a word is made of its fields, so the encoder gives back every bit that is read, and so the row. -/
theorem decodedWordMatchesItsTableRow : Obligations.DecodedWordMatchesItsTableRow := by
  intro z op i h
  obtain ⟨hwf, hread⟩ := decode_ok h
  exact ⟨hwf, and_opcodeMask_of_decode h, hread.symm⟩

/-- Settles O3: the row's mask shows the decoder every field that it selects on. -/
theorem tableRowWordDecodesToThatRow : Obligations.TableRowWordDecodesToThatRow := by
  intro z op i h
  exact decode_of_row h

/-- Settles O4: family by family, the words that fall through the decoder's match. -/
theorem unknownWordsAreTheTableOfR76 : Obligations.UnknownWordsAreTheTableOfR76 := by
  intro z op
  refine ⟨decode_error_iff.trans (and_iff_right rfl), fun ⟨e, he⟩ => ?_⟩
  obtain ⟨rfl, _⟩ := decode_error_iff.mp he
  exact he

/-- Settles O5: ten closed words, decoded. -/
theorem writtenOutWordsDecode : Obligations.WrittenOutWordsDecode := by
  exact ⟨rfl, rfl, rfl, rfl, rfl, rfl, rfl, rfl, rfl, rfl⟩

/-- Settles O9: fetch and decode answer the halt, and a tick that halts there does nothing else. -/
theorem unknownOpcodeHaltsTheStep : Obligations.UnknownOpcodeHaltsTheStep := by
  intro s e hready hpc hdecode
  have hfetch := State.fetchInstr_of_decode_error (s := s.beginTick) hpc hdecode
  exact ⟨_, step_of_fetchInstr_error hready hfetch, State.onlyHalted_takeHalt _ _⟩

end Sys2Proof.Machine
end

section
/-!
SUPPORT. Control flow (40_control.md): the families of the jumps and the skips, what each instruction answers by name, and
what a write of PC leaves alone. The claims about CLS, RET, CALL, the jumps and the skips that test registers are read off
from these.
-/

namespace Sys2Proof

open Config (ZeroFamilyDecode)

/-! ### The families of the jumps and the skips (30_encoding.md R72, R74) -/

theorem decode_of_family1 {op : Word} (z : ZeroFamilyDecode) (h : opFamily op = 0x1) :
    decode z op = .ok (.jp (opNNN op)) := by
  simp only [decode, h]

theorem decode_of_family3 {op : Word} (z : ZeroFamilyDecode) (h : opFamily op = 0x3) :
    decode z op = .ok (.seByte (opX op) (opKK op)) := by
  simp only [decode, h]

theorem decode_of_family4 {op : Word} (z : ZeroFamilyDecode) (h : opFamily op = 0x4) :
    decode z op = .ok (.sneByte (opX op) (opKK op)) := by
  simp only [decode, h]

theorem decode_of_family5 {op : Word} (z : ZeroFamilyDecode) (h : opFamily op = 0x5) :
    decode z op = .ok (.seReg (opX op) (opY op)) := by
  simp only [decode, h]

theorem decode_of_family9 {op : Word} (z : ZeroFamilyDecode) (h : opFamily op = 0x9) :
    decode z op = .ok (.sneReg (opX op) (opY op)) := by
  simp only [decode, h]

theorem decode_of_familyB {op : Word} (z : ZeroFamilyDecode) (h : opFamily op = 0xB) :
    decode z op = .ok (.jpV0 (opNNN op)) := by
  simp only [decode, h]

end Sys2Proof

namespace Sys2Proof.Machine

/-! ### What the instructions without a check answer -/

theorem exec_cls (s : State) :
    exec .cls s = .next ((s.setFramebuffer Framebuffer.blank).emit .displayClear).advance := rfl

theorem exec_jp (nnn : Addr12) (s : State) : exec (.jp nnn) s = .next (s.setPc (zext16 nnn)) := rfl

theorem exec_jpV0 (nnn : Addr12) (s : State) :
    exec (.jpV0 nnn) s = .next (s.setPc (zext16 nnn + (s.reg 0).setWidth 16)) := rfl

theorem exec_seByte (x : RegIdx) (kk : Byte) (s : State) :
    exec (.seByte x kk) s = .next (s.skipIf (decide (s.reg x = kk))) := rfl

theorem exec_sneByte (x : RegIdx) (kk : Byte) (s : State) :
    exec (.sneByte x kk) s = .next (s.skipIf (decide (s.reg x ≠ kk))) := rfl

theorem exec_seReg (x y : RegIdx) (s : State) :
    exec (.seReg x y) s = .next (s.skipIf (decide (s.reg x = s.reg y))) := rfl

theorem exec_sneReg (x y : RegIdx) (s : State) :
    exec (.sneReg x y) s = .next (s.skipIf (decide (s.reg x ≠ s.reg y))) := rfl

/-! ### Writes of PC alone -/

/-- A write of PC leaves the rest alone. -/
theorem State.onlyPc_setPc (w : Word) (s : State) : s.OnlyPc (s.setPc w) := ⟨rfl, fun _ => rfl⟩

/-- A skip writes PC only, whether or not its condition holds (R82). -/
theorem State.onlyPc_skipIf (c : Bool) (s : State) : s.OnlyPc (s.skipIf c) := s.onlyPc_setPc _

theorem State.skipIf_pc_of_pos {c : Bool} (s : State) (h : c = true) : (s.skipIf c).pc = s.pc + 4 := by
  simp [h]

theorem State.skipIf_pc_of_neg {c : Bool} (s : State) (h : ¬ c = true) : (s.skipIf c).pc = s.pc + 2 := by
  simp [h]

/-- SE's skip, its operands compared as numbers (R89, R91). -/
theorem State.skipIf_eq (a b : Byte) (s : State) :
    s.OnlyPc (s.skipIf (decide (a = b))) ∧
    (a.toNat = b.toNat → (s.skipIf (decide (a = b))).pc = s.pc + 4) ∧
    (a.toNat ≠ b.toNat → (s.skipIf (decide (a = b))).pc = s.pc + 2) := by
  have hiff : decide (a = b) = true ↔ a.toNat = b.toNat := by rw [decide_eq_true_iff, BitVec.toNat_inj]
  exact ⟨s.onlyPc_skipIf _, fun h => s.skipIf_pc_of_pos (hiff.mpr h), fun h => s.skipIf_pc_of_neg (mt hiff.mp h)⟩

/-- SNE's skip, its operands compared as numbers (R90, R92). -/
theorem State.skipIf_ne (a b : Byte) (s : State) :
    s.OnlyPc (s.skipIf (decide (a ≠ b))) ∧
    (a.toNat ≠ b.toNat → (s.skipIf (decide (a ≠ b))).pc = s.pc + 4) ∧
    (a.toNat = b.toNat → (s.skipIf (decide (a ≠ b))).pc = s.pc + 2) := by
  have hiff : decide (a ≠ b) = true ↔ a.toNat ≠ b.toNat := by rw [decide_eq_true_iff, BitVec.toNat_ne]
  exact ⟨s.onlyPc_skipIf _, fun h => s.skipIf_pc_of_pos (hiff.mpr h),
    fun h => s.skipIf_pc_of_neg fun hc => hiff.mp hc h⟩

/-! ### The claims -/

/-- Settles O26: the new frame is the blank one. -/
theorem clsClearsTheFramebuffer : Obligations.ClsClearsTheFramebuffer := by
  intro s
  exact ⟨_, exec_cls s, Framebuffer.pixel_blank, rfl, rfl, rfl, fun _ => rfl⟩

/-- Settles O27: SP decides between the pop and the halt. -/
theorem retGoesPastTheMatchingCall : Obligations.RetGoesPastTheMatchingCall := by
  intro s
  refine ⟨fun hsp => ?_, fun hsp => ?_⟩
  · exact ⟨_, exec_ret_of_occupied hsp, rfl, Nat.sub_add_cancel hsp, rfl, fun _ => rfl⟩
  · exact ⟨_, exec_ret_of_empty hsp, State.onlyHalted_takeHalt s _⟩

/-- Settles O28: SP decides between the push and the halt; the push sets the slot at SP and no other. -/
theorem callPushesItsOwnAddress : Obligations.CallPushesItsOwnAddress := by
  intro s nnn
  refine ⟨fun hsp => ?_, fun hsp => ?_⟩
  · refine ⟨_, exec_call_of_free nnn hsp, toNat_zext16 nnn, rfl, Vector.getElem_set_self hsp, fun j hj => ?_, rfl,
      fun _ => rfl⟩
    exact Vector.getElem_set_ne hsp j.isLt (Ne.symm hj)
  · exact ⟨_, exec_call_of_full nnn hsp, State.onlyHalted_takeHalt s _⟩

/-- Settles O30: both targets are 16-bit words that do not wrap, and a jump writes PC only. -/
theorem jumpsGoToTheirTargets : Obligations.JumpsGoToTheirTargets := by
  refine ⟨fun z _ => decode_of_family1 z, fun z _ => decode_of_familyB z, fun s nnn => ⟨?_, ?_⟩⟩
  · exact ⟨_, exec_jp nnn s, toNat_zext16 nnn, s.onlyPc_setPc _⟩
  · exact ⟨_, exec_jpV0 nnn s, toNat_indexedTarget nnn (s.reg 0), s.onlyPc_setPc _⟩

/-- Settles O31: the two skips compare V[x] with kk. -/
theorem skipsCompareWithImmediate : Obligations.SkipsCompareWithImmediate := by
  refine ⟨fun z _ => decode_of_family3 z, fun z _ => decode_of_family4 z, fun s x kk => ⟨?_, ?_⟩⟩
  · exact ⟨_, exec_seByte x kk s, s.skipIf_eq (s.reg x) kk⟩
  · exact ⟨_, exec_sneByte x kk s, s.skipIf_ne (s.reg x) kk⟩

/-- Settles O32: the two skips compare V[x] with V[y], and the decoder reads no bit of op[3:0]. -/
theorem skipsCompareTwoRegisters : Obligations.SkipsCompareTwoRegisters := by
  refine ⟨fun z _ => decode_of_family5 z, fun z _ => decode_of_family9 z, fun s x y => ⟨?_, ?_⟩⟩
  · exact ⟨_, exec_seReg x y s, s.skipIf_eq (s.reg x) (s.reg y)⟩
  · exact ⟨_, exec_sneReg x y s, s.skipIf_ne (s.reg x) (s.reg y)⟩

end Sys2Proof.Machine
end

section
/-!
SUPPORT. The ALU (41_alu.md): the families that LD Vx, byte, ADD Vx, byte and LD Vx, Vy decode from, what each instruction
answers by name, the results and flags as numbers, and what the two writes of the general registers leave. The claims about
families 6, 7, 8 and C are read off from these.
-/

namespace Sys2Proof

open Config (ZeroFamilyDecode)

/-! ### The families of the ALU (30_encoding.md R72, R74) -/

theorem decode_of_family6 {op : Word} (z : ZeroFamilyDecode) (h : opFamily op = 0x6) :
    decode z op = .ok (.ldByte (opX op) (opKK op)) := by
  simp only [decode, h]

theorem decode_of_family7 {op : Word} (z : ZeroFamilyDecode) (h : opFamily op = 0x7) :
    decode z op = .ok (.addByte (opX op) (opKK op)) := by
  simp only [decode, h]

theorem decode_of_family8_selector0 {op : Word} (z : ZeroFamilyDecode) (h : opFamily op = 0x8) (hn : opN op = 0x0) :
    decode z op = .ok (.ldReg (opX op) (opY op)) := by
  rw [decode_of_family8 z h]
  simp only [decodeFamily8, hn]

end Sys2Proof

namespace Sys2Proof.Machine

/-! ### What the instructions answer -/

theorem exec_ldByte (x : RegIdx) (kk : Byte) (s : State) :
    exec (.ldByte x kk) s = .next (s.setReg x kk).advance := rfl

theorem exec_addByte (x : RegIdx) (kk : Byte) (s : State) :
    exec (.addByte x kk) s = .next (s.setReg x (sumByte (s.reg x) kk)).advance := rfl

theorem exec_rnd (x : RegIdx) (kk : Byte) (s : State) :
    exec (.rnd x kk) s = .next (s.setReg x (s.randomByte &&& kk)).advance := rfl

theorem exec_ldReg (x y : RegIdx) (s : State) :
    exec (.ldReg x y) s = .next (s.setReg x (s.reg y)).advance := rfl

theorem exec_orReg (x y : RegIdx) (s : State) :
    exec (.orReg x y) s = .next (s.setReg x (s.reg x ||| s.reg y)).advance := rfl

theorem exec_andReg (x y : RegIdx) (s : State) :
    exec (.andReg x y) s = .next (s.setReg x (s.reg x &&& s.reg y)).advance := rfl

theorem exec_xorReg (x y : RegIdx) (s : State) :
    exec (.xorReg x y) s = .next (s.setReg x (s.reg x ^^^ s.reg y)).advance := rfl

theorem exec_addReg (x y : RegIdx) (s : State) : exec (.addReg x y) s =
    .next (s.writeBack x (sumByte (s.reg x) (s.reg y)) (carryFlag (s.reg x) (s.reg y))).advance := rfl

theorem exec_subReg (x y : RegIdx) (s : State) : exec (.subReg x y) s =
    .next (s.writeBack x (differenceByte (s.reg x) (s.reg y)) (notBorrowFlag (s.reg x) (s.reg y))).advance := rfl

theorem exec_subnReg (x y : RegIdx) (s : State) : exec (.subnReg x y) s =
    .next (s.writeBack x (differenceByte (s.reg y) (s.reg x)) (notBorrowFlag (s.reg y) (s.reg x))).advance := rfl

theorem exec_shrReg (x y : RegIdx) (s : State) : exec (.shrReg x y) s =
    .next (s.writeBack x (shiftRightByte (s.shiftOperand x y)) (shiftedOutRight (s.shiftOperand x y))).advance := rfl

theorem exec_shlReg (x y : RegIdx) (s : State) : exec (.shlReg x y) s =
    .next (s.writeBack x (shiftLeftByte (s.shiftOperand x y)) (shiftedOutLeft (s.shiftOperand x y))).advance := rfl

/-! ### Results and flags as numbers -/

theorem toNat_sumByte (a b : Byte) : (sumByte a b).toNat = (a.toNat + b.toNat) % 256 := rfl

theorem toNat_differenceByte (a b : Byte) : (differenceByte a b).toNat = (a.toNat + 256 - b.toNat) % 256 := rfl

/-- Half a byte is a byte: the shift to the right needs no reduction. -/
theorem toNat_shiftRightByte (b : Byte) : (shiftRightByte b).toNat = b.toNat / 2 := by
  have hb := b.isLt
  exact Nat.mod_eq_of_lt (by omega)

theorem toNat_shiftLeftByte (b : Byte) : (shiftLeftByte b).toNat = b.toNat * 2 % 256 := rfl

theorem toNat_flagByte (f : Bool) : (flagByte f).toNat = f.toNat := by
  cases f <;> rfl

theorem toNat_flagByte_carryFlag (a b : Byte) :
    (flagByte (carryFlag a b)).toNat = if a.toNat + b.toNat > 255 then 1 else 0 := by
  rw [toNat_flagByte, carryFlag]
  split_ifs with h <;> simp [h]

theorem toNat_flagByte_notBorrowFlag (a b : Byte) :
    (flagByte (notBorrowFlag a b)).toNat = if b.toNat > a.toNat then 0 else 1 := by
  rw [toNat_flagByte, notBorrowFlag]
  split_ifs with h <;> simp [h]

theorem toNat_flagByte_shiftedOutRight (b : Byte) : (flagByte (shiftedOutRight b)).toNat = b.toNat % 2 := by
  rw [toNat_flagByte, shiftedOutRight, BitVec.getLsbD, Nat.toNat_testBit, Nat.pow_zero, Nat.div_one]

/-- A byte has no bit above bit 7, so its bit 7 is all of the quotient by 128. -/
theorem toNat_flagByte_shiftedOutLeft (b : Byte) : (flagByte (shiftedOutLeft b)).toNat = b.toNat / 128 := by
  have hb := b.isLt
  rw [toNat_flagByte, shiftedOutLeft, BitVec.getLsbD, Nat.toNat_testBit]
  omega

/-- The operand of a shift, as a number (R104 and R106 with decision D13). -/
theorem State.toNat_shiftOperand (x y : RegIdx) (s : State) : (s.shiftOperand x y).toNat = shiftedValue x y s := by
  unfold State.shiftOperand shiftedValue
  cases s.params.shiftSource <;> rfl

/-! ### Writes of the general registers -/

/-- A write of one register, then the next PC. -/
theorem State.wroteReg_setReg (x : RegIdx) (b : Byte) (s : State) : s.WroteReg (s.setReg x b).advance x b :=
  ⟨⟨rfl, fun _ => rfl⟩, rfl, State.reg_setReg_self x b s, fun _ hz => State.reg_setReg_other b s hz.symm⟩

/-- The byte that was written is the one V[x] now holds. -/
theorem State.WroteReg.own {s t : State} {x : RegIdx} {b : Byte} (h : s.WroteReg t x b) : s.WroteReg t x (t.reg x) := by
  obtain ⟨honly, hpc, _, hothers⟩ := h
  exact ⟨honly, hpc, rfl, hothers⟩

/-- For a destination other than VF the result and the flag do not meet (R95). -/
theorem State.reg_writeBack_of_ne {x : RegIdx} (r : Byte) (f : Bool) (s : State) (h : x ≠ vf) :
    (s.writeBack x r f).reg x = r ∧ (s.writeBack x r f).reg vf = flagByte f := by
  simp [State.reg_writeBack, h, h.symm]

/-- For x = F the write that comes last stays (R95, D12). -/
theorem State.reg_writeBack_vf (r : Byte) (f : Bool) (s : State) :
    (s.writeBack vf r f).reg vf = if s.params.vfWriteOrder = .flagLast then flagByte f else r := by
  simp [State.reg_writeBack]

/-- WriteBack, then the next PC, with the result and the flag as numbers. -/
theorem State.wroteBack_writeBack {r : Byte} {f : Bool} {n m : Nat} (x : RegIdx) (s : State) (hr : r.toNat = n)
    (hf : (flagByte f).toNat = m) : s.WroteBack (s.writeBack x r f).advance x n m := by
  subst hr hf
  refine ⟨⟨?_, fun _ => ?_⟩, ?_, fun z hx hvf => ?_, fun hx => ?_, fun hx => ?_⟩
  · rw [State.writeBack_eq]
    rfl
  · rw [State.advance_mem, State.writeBack_mem]
  · rw [State.advance_pc, State.writeBack_pc]
  · exact State.reg_writeBack_other r f s hx.symm hvf.symm
  · obtain ⟨hresult, hflag⟩ := State.reg_writeBack_of_ne r f s hx
    exact ⟨congrArg BitVec.toNat hresult, congrArg BitVec.toNat hflag⟩
  · subst hx
    rw [State.advance_reg, State.reg_writeBack_vf, apply_ite BitVec.toNat]

/-- What a flag writer leaves in V[x] and in VF, for x other than F. -/
theorem toNat_of_wroteBack {i : Instr} {s t : State} {x : RegIdx} {n m : Nat} (hx : x ≠ vf)
    (hspec : ∃ u, exec i s = .next u ∧ s.WroteBack u x n m) (hexec : exec i s = .next t) :
    (t.reg x).toNat = n ∧ (t.reg vf).toNat = m := by
  obtain ⟨u, hu, _, _, _, hne, _⟩ := hspec
  obtain rfl : u = t := Host.Outcome.next.inj (hu.symm.trans hexec)
  exact hne hx

/-! ### The random byte (R108, log 9) -/

theorem State.randomByte_of_queued {s : State} {t : TickInput} {rest : List TickInput} (h : s.inputs = t :: rest) :
    s.randomByte = t.rnd := by
  rw [State.randomByte, h]

theorem State.randomByte_of_none {s : State} (h : s.inputs = []) : s.randomByte = Config.freeRandom s.ticks := by
  rw [State.randomByte, h]

/-! ### The claims -/

/-- Settles O33: the write of kk to V[x]. -/
theorem loadImmediateWritesOneRegister : Obligations.LoadImmediateWritesOneRegister := by
  refine ⟨fun z _ => decode_of_family6 z, fun s x kk => ?_⟩
  exact ⟨_, exec_ldByte x kk s, s.wroteReg_setReg x kk⟩

/-- Settles O34: the write of the sum modulo 256 to V[x]. -/
theorem addImmediateWrapsWithoutFlag : Obligations.AddImmediateWrapsWithoutFlag := by
  refine ⟨fun z _ => decode_of_family7 z, fun s x kk => ?_⟩
  refine ⟨_, exec_addByte x kk s, (s.wroteReg_setReg x _).own, ?_⟩
  rw [State.advance_reg, State.reg_setReg_self, toNat_sumByte]

/-- Settles O35: the write of V[y] to V[x]. -/
theorem copyRegisterWritesOneRegister : Obligations.CopyRegisterWritesOneRegister := by
  refine ⟨fun z _ => decode_of_family8_selector0 z, fun s x y => ?_⟩
  exact ⟨_, exec_ldReg x y s, s.wroteReg_setReg x (s.reg y)⟩

/-- Settles O36: one write of V[x], whose bits are those of the two operands combined. -/
theorem logicOperationsActBitwise : Obligations.LogicOperationsActBitwise := by
  intro s x y
  refine ⟨⟨_, exec_orReg x y s, (s.wroteReg_setReg x _).own, fun b => ?_⟩,
    ⟨_, exec_andReg x y s, (s.wroteReg_setReg x _).own, fun b => ?_⟩,
    ⟨_, exec_xorReg x y s, (s.wroteReg_setReg x _).own, fun b => ?_⟩⟩
  · rw [State.advance_reg, State.reg_setReg_self, BitVec.getLsbD_or]
  · rw [State.advance_reg, State.reg_setReg_self, BitVec.getLsbD_and]
  · rw [State.advance_reg, State.reg_setReg_self, BitVec.getLsbD_xor]

/-- Settles O37: WriteBack of the sum and its carry. -/
theorem addSetsCarry : Obligations.AddSetsCarry := by
  intro s x y
  exact ⟨_, exec_addReg x y s, s.wroteBack_writeBack x (toNat_sumByte _ _) (toNat_flagByte_carryFlag _ _)⟩

/-- Settles O38: WriteBack of the difference and its not-borrow. -/
theorem subSetsNotBorrow : Obligations.SubSetsNotBorrow := by
  intro s x y
  exact ⟨_, exec_subReg x y s, s.wroteBack_writeBack x (toNat_differenceByte _ _) (toNat_flagByte_notBorrowFlag _ _)⟩

/-- Settles O39: SUB's result and flag, with the operands exchanged. -/
theorem subnSetsNotBorrow : Obligations.SubnSetsNotBorrow := by
  intro s x y
  exact ⟨_, exec_subnReg x y s, s.wroteBack_writeBack x (toNat_differenceByte _ _) (toNat_flagByte_notBorrowFlag _ _)⟩

/-- Settles O40: WriteBack of the operand halved and of its bit 0. -/
theorem shrShiftsOneBitIntoVf : Obligations.ShrShiftsOneBitIntoVf := by
  intro s x y
  rw [← s.toNat_shiftOperand x y]
  exact ⟨_, exec_shrReg x y s, s.wroteBack_writeBack x (toNat_shiftRightByte _) (toNat_flagByte_shiftedOutRight _)⟩

/-- Settles O41: WriteBack of the operand doubled and of its bit 7. -/
theorem shlShiftsOneBitIntoVf : Obligations.ShlShiftsOneBitIntoVf := by
  intro s x y
  rw [← s.toNat_shiftOperand x y]
  exact ⟨_, exec_shlReg x y s, s.wroteBack_writeBack x (toNat_shiftLeftByte _) (toNat_flagByte_shiftedOutLeft _)⟩

/-- Settles O42: with x other than F, V[x] and VF hold the result and the flag that O37 to O41 name, and the two are the
exact value's remainder and quotient. -/
theorem resultAndFlagDetermineTheExactValue : Obligations.ResultAndFlagDetermineTheExactValue := by
  intro s t x y hx
  have hvx := (s.reg x).isLt
  have hvy := (s.reg y).isLt
  refine ⟨fun hexec => ?_, fun hexec => ?_, fun hexec => ?_, fun hexec => ?_, fun hexec => ?_⟩
  · obtain ⟨hresult, hflag⟩ := toNat_of_wroteBack hx (addSetsCarry s x y) hexec
    split_ifs at hflag <;> omega
  · obtain ⟨hresult, hflag⟩ := toNat_of_wroteBack hx (subSetsNotBorrow s x y) hexec
    split_ifs at hflag <;> omega
  · obtain ⟨hresult, hflag⟩ := toNat_of_wroteBack hx (subnSetsNotBorrow s x y) hexec
    split_ifs at hflag <;> omega
  · obtain ⟨hresult, hflag⟩ := toNat_of_wroteBack hx (shrShiftsOneBitIntoVf s x y) hexec
    omega
  · obtain ⟨hresult, hflag⟩ := toNat_of_wroteBack hx (shlShiftsOneBitIntoVf s x y) hexec
    omega

/-- Settles O43: the write of the masked byte to V[x], and where the byte comes from. -/
theorem rndMasksTheRandomByte : Obligations.RndMasksTheRandomByte := by
  intro s x kk
  refine ⟨_, exec_rnd x kk s, (s.wroteReg_setReg x _).own, fun b => ?_, fun _ _ _ => State.randomByte_of_queued,
    State.randomByte_of_none⟩
  rw [State.advance_reg, State.reg_setReg_self, BitVec.getLsbD_and]

end Sys2Proof.Machine
end

section
/-!
SUPPORT. The index register and the memory accesses through it (42_index_memory.md): the family that LD I decodes from,
what each instruction answers when its whole range exists and when it does not, and what I and memory then hold. The
claims about Annn, Fx1E, Fx29, Fx33, Fx55 and Fx65, and about the range check of Dxyn, are read off from these.
-/

namespace Sys2Proof

open Config (ZeroFamilyDecode)

/-- The family of LD I, addr (30_encoding.md R72, R74). -/
theorem decode_of_familyA {op : Word} (z : ZeroFamilyDecode) (h : opFamily op = 0xA) :
    decode z op = .ok (.ldI (opNNN op)) := by
  simp only [decode, h]

end Sys2Proof

namespace Sys2Proof.Machine

/-! ### What the instructions answer -/

theorem exec_ldI (nnn : Addr12) (s : State) : exec (.ldI nnn) s = .next (s.setIndex (zext16 nnn)).advance := rfl

theorem exec_addI (x : RegIdx) (s : State) :
    exec (.addI x) s = .next (s.setIndex (BitVec.ofNat 16 (s.i.toNat + (s.reg x).toNat))).advance := rfl

theorem exec_ldF (x : RegIdx) (s : State) :
    exec (.ldF x) s = .next (s.setIndex (BitVec.ofNat 16 ((s.reg x).toNat * 5))).advance := rfl

/-- Fx33 whose three addresses exist (R113). -/
theorem exec_ldB_of_inside {s : State} (x : RegIdx) (h : s.i.toNat + 2 < 4096) :
    exec (.ldB x) s = .next (s.storeBytes s.i.toNat (decimalDigits (s.reg x))).advance := by
  simp only [exec, execLdB, accessHalt_none_of s.i.toNat 3 (.inr h)]

/-- Fx65 whose whole block lies inside the memory (R115). -/
theorem exec_loadRegs_of_inside {s : State} {x : RegIdx} (h : s.i.toNat + x.val < 4096) :
    exec (.loadRegs x) s =
      .next { s with pc := s.pc + 2, v := s.loadedRegisters x s.i.toNat, i := s.indexAfterBlock x } := by
  simp only [exec, execLoadRegs, accessHalt_none_of s.i.toNat (x.val + 1) (.inr h), State.advance, State.setPc,
    State.setIndex, State.setRegs]

/-! ### The range check comes first (60_exceptions.md R134, R135) -/

theorem exec_ldB_of_accessHalt {s : State} {r : HaltReason} (x : RegIdx) (h : accessHalt s.i.toNat 3 = some r) :
    exec (.ldB x) s = halt r s := by
  simp only [exec, execLdB, h]

theorem exec_storeRegs_of_accessHalt {s : State} {x : RegIdx} {r : HaltReason}
    (h : accessHalt s.i.toNat (x.val + 1) = some r) : exec (.storeRegs x) s = halt r s := by
  simp only [exec, execStoreRegs, h]

theorem exec_loadRegs_of_accessHalt {s : State} {x : RegIdx} {r : HaltReason}
    (h : accessHalt s.i.toNat (x.val + 1) = some r) : exec (.loadRegs x) s = halt r s := by
  simp only [exec, execLoadRegs, h]

theorem exec_drw_of_accessHalt {s : State} {n : Nat} {r : HaltReason} (x y : RegIdx)
    (h : accessHalt s.i.toNat n = some r) : exec (.drw x y n) s = halt r s := by
  simp only [exec, execDrw, h]

/-- An instruction that answers a halt does nothing else. -/
theorem onlyHalted_of_exec_eq_halt {i : Instr} {s : State} {r : HaltReason} (h : exec i s = halt r s) :
    ∃ t, exec i s = .next t ∧ s.OnlyHalted t r :=
  ⟨_, h, s.onlyHalted_takeHalt r⟩

/-! ### What I holds -/

/-- A write of I, then the next PC. -/
theorem State.onlyPcIndex_setIndex (w : Word) (s : State) : s.OnlyPcIndex (s.setIndex w).advance :=
  ⟨rfl, fun _ => rfl⟩

/-- Five times a byte is a 16-bit word: the glyph address does not wrap (R112). -/
theorem toNat_glyphAddress (b : Byte) : (BitVec.ofNat 16 (b.toNat * 5)).toNat = b.toNat * 5 := by
  have hb := b.isLt
  exact Nat.mod_eq_of_lt (by omega)

/-- I after a block, as a number (R116 with decision D15). -/
theorem State.toNat_indexAfterBlock (x : RegIdx) (s : State) : (s.indexAfterBlock x).toNat =
    if s.params.iAfterBlock = .increment then (s.i.toNat + x.val + 1) % 65536 else s.i.toNat := by
  unfold State.indexAfterBlock
  cases s.params.iAfterBlock <;> rfl

/-! ### The decimal digits (R113) -/

@[simp] theorem length_decimalDigits (b : Byte) : (decimalDigits b).length = 3 := rfl

/-- No digit of a byte is larger than the byte, so each is a byte itself. -/
theorem toNat_ofNat_of_le {b : Byte} {d : Nat} (h : d ≤ b.toNat) : (BitVec.ofNat 8 d).toNat = d :=
  Nat.mod_eq_of_lt (Nat.lt_of_le_of_lt h b.isLt)

theorem toNat_decimalDigits_hundreds (b : Byte) : (decimalDigits b)[0].toNat = b.toNat / 100 :=
  toNat_ofNat_of_le (Nat.div_le_self _ _)

theorem toNat_decimalDigits_tens (b : Byte) : (decimalDigits b)[1].toNat = b.toNat / 10 % 10 :=
  toNat_ofNat_of_le ((Nat.mod_le _ _).trans (Nat.div_le_self _ _))

theorem toNat_decimalDigits_units (b : Byte) : (decimalDigits b)[2].toNat = b.toNat % 10 :=
  toNat_ofNat_of_le (Nat.mod_le _ _)

/-! ### The block of registers (R114, R115) -/

/-- Fx55 leaves every byte outside its block alone. -/
theorem State.read_storeBytes_registerBlock_outside {s : State} {x : RegIdx} {a : Nat}
    (h : a < s.i.toNat ∨ s.i.toNat + (x.val + 1) ≤ a) :
    (s.mem.writeBytes s.i.toNat (s.registerBlock x)).read a = s.mem.read a :=
  Memory.read_writeBytes_outside _ _ _ _ (by rwa [State.length_registerBlock])

/-- Fx65 loads every register up to Vx. -/
theorem State.loadedRegisters_upTo {x z : RegIdx} (base : Nat) (s : State) (h : z.val ≤ x.val) :
    (s.loadedRegisters x base)[z] = s.mem.read (base + z.val) := by
  have hz : z ≤ x := h
  simp [State.loadedRegisters, hz]

/-! ### The claims -/

/-- Settles O44: the write of nnn, widened, to I. -/
theorem loadIndexWritesI : Obligations.LoadIndexWritesI := by
  refine ⟨fun z _ => decode_of_familyA z, fun s nnn => ?_⟩
  exact ⟨_, exec_ldI nnn s, s.onlyPcIndex_setIndex _, rfl, toNat_zext16 nnn⟩

/-- Settles O45: one write of I each; the sum is taken modulo 65536, and the product does not wrap. -/
theorem indexArithmeticWritesIOnly : Obligations.IndexArithmeticWritesIOnly := by
  intro s x
  refine ⟨?_, ?_⟩
  · exact ⟨_, exec_addI x s, s.onlyPcIndex_setIndex _, rfl, BitVec.toNat_ofNat _ _⟩
  · exact ⟨_, exec_ldF x s, s.onlyPcIndex_setIndex _, rfl, toNat_glyphAddress (s.reg x)⟩

/-- Settles O46: the three digits are stored side by side, and a store leaves the bytes outside its run alone. -/
theorem decimalDigitsAreStoredAtI : Obligations.DecimalDigitsAreStoredAtI := by
  intro s x hm hin
  have hdigit (k : Nat) (hk : k < (decimalDigits (s.reg x)).length) :
      (s.mem.writeBytes s.i.toNat (decimalDigits (s.reg x))).read (s.i.toNat + k) = (decimalDigits (s.reg x))[k] :=
    Memory.read_writeBytes_inside _ s.mem _ k hm hin hk
  refine ⟨_, exec_ldB_of_inside x hin, rfl, rfl, ?_, ?_, ?_, fun a ha => ?_⟩
  · exact (congrArg BitVec.toNat (hdigit 0 (by simp))).trans (toNat_decimalDigits_hundreds _)
  · exact (congrArg BitVec.toNat (hdigit 1 (by simp))).trans (toNat_decimalDigits_tens _)
  · exact (congrArg BitVec.toNat (hdigit 2 (by simp))).trans (toNat_decimalDigits_units _)
  · exact Memory.read_writeBytes_outside _ _ _ _ ha

/-- Settles O47: the stored bytes are the registers in order, and a store leaves the bytes outside its run alone. -/
theorem registerBlockIsStoredAtI : Obligations.RegisterBlockIsStoredAtI := by
  intro s x hm hin
  refine ⟨_, exec_storeRegs_of_inside hin, rfl, rfl, fun k hk => ?_, fun a ha => ?_, s.toNat_indexAfterBlock x⟩
  · exact State.read_storeBytes_registerBlock hm hin hk
  · exact State.read_storeBytes_registerBlock_outside ha

/-- Settles O48: Vx is the last register that takes a byte of the block. -/
theorem registerBlockIsLoadedFromI : Obligations.RegisterBlockIsLoadedFromI := by
  intro s x hin
  refine ⟨_, exec_loadRegs_of_inside hin, rfl, rfl, fun k hk => ?_, fun k hk => ?_, fun _ => rfl,
    s.toNat_indexAfterBlock x⟩
  · exact s.loadedRegisters_upTo s.i.toNat hk
  · exact s.loadedRegisters_above s.i.toNat (Nat.not_le.mpr hk)

/-- Settles O49: before all else the four make one range check, which reports the lowest missing address. -/
theorem accessBeyondMemoryHaltsFirst : Obligations.AccessBeyondMemoryHaltsFirst := by
  intro s x y n
  have hcheck (k : Nat) (hk : 0 < k) (h : 4096 < s.i.toNat + k) :
      accessHalt s.i.toNat k = some (.memoryOutOfRange (max s.i.toNat 4096)) := accessHalt_some_of s.i.toNat k hk h
  refine ⟨fun h => ?_, fun h => ?_, fun h => ?_, fun hn h => ?_⟩
  · exact onlyHalted_of_exec_eq_halt (exec_ldB_of_accessHalt x (hcheck 3 (by omega) (by omega)))
  · exact onlyHalted_of_exec_eq_halt (exec_storeRegs_of_accessHalt (hcheck (x.val + 1) (by omega) (by omega)))
  · exact onlyHalted_of_exec_eq_halt (exec_loadRegs_of_accessHalt (hcheck (x.val + 1) (by omega) (by omega)))
  · exact onlyHalted_of_exec_eq_halt (exec_drw_of_accessHalt x y (hcheck n hn h))

end Sys2Proof.Machine
end

section
/-!
SUPPORT. The draw (43_draw.md): the targets of a sprite as the statements account for them, what each edge mode makes of
them, and what inverting them does to the frame and to VF, once and twice. The claims about Dxyn follow from these.
-/

namespace Sys2Proof.Machine

/-! ### The targets of a sprite (R118, R121) -/

/-- T: the targets of the n-row sprite at I, drawn at (V[x], V[y]). -/
def State.sprite (x y : RegIdx) (n : Nat) (s : State) : List Target :=
  spriteTargets (s.reg x).toNat (s.reg y).toNat (s.loadBytes s.i.toNat n)

/-- The targets are the set bits of the rows in memory. -/
theorem State.mem_sprite {s : State} {x y : RegIdx} {n : Nat} {t : Target} :
    t ∈ s.sprite x y n ↔
      ∃ r c, r < n ∧ c < 8 ∧ s.SpriteBit r c ∧ t = ((s.reg x).toNat + c, (s.reg y).toNat + r) := by
  simp only [State.sprite, mem_spriteTargets, State.loadBytes, List.length_map, List.length_range, List.getElem_map,
    List.getElem_range, exists_prop]

theorem State.sprite_nodup (s : State) (x y : RegIdx) (n : Nat) : (s.sprite x y n).Nodup :=
  spriteTargets_nodup _ _ _

theorem Target.outOfBounds_iff {t : Target} : t.outOfBounds = true ↔ 64 ≤ t.1 ∨ 32 ≤ t.2 :=
  decide_eq_true_iff

theorem Target.not_outOfBounds_iff {t : Target} : ¬ t.outOfBounds = true ↔ t.1 < 64 ∧ t.2 < 32 := by
  rw [Target.outOfBounds_iff, not_or, Nat.not_le, Nat.not_le]

/-- A sprite lies inside the grid when none of its targets is out of bounds. -/
theorem State.spriteInside_iff {s : State} {x y : RegIdx} {n : Nat} :
    s.SpriteInside x y n ↔ ∀ t ∈ s.sprite x y n, ¬ t.outOfBounds = true := by
  simp only [State.mem_sprite, Target.not_outOfBounds_iff]
  constructor
  · rintro hin t ⟨r, c, hr, hc, hbit, rfl⟩
    exact hin r c hr hc hbit
  · intro hin r c hr hc hbit
    exact hin _ ⟨r, c, hr, hc, hbit, rfl⟩

/-! ### The edge modes (R120, D9) -/

/-- A target moved into the grid, as WRAP does it. -/
def wrapTarget (t : Target) : Target := (t.1 % Config.screenWidth, t.2 % Config.screenHeight)

/-- The pixels that a list of targets inverts are those that a sprite covers, each named once. -/
structure State.SpritePixels (s : State) (x y : RegIdx) (n : Nat) (ts : List Target) : Prop where
  inGrid : ∀ t ∈ ts, t.1 < 64 ∧ t.2 < 32
  nodup : ts.Nodup
  covers : ∀ px py, px < 64 → py < 32 → ((px, py) ∈ ts ↔ s.SpriteCovers x y n px py)

/-- Under WRAP the covered pixels are the targets moved into the grid. -/
theorem State.spriteCovers_of_wrap {s : State} {x y : RegIdx} {n px py : Nat} (h : s.params.drawEdgeMode = .wrap) :
    s.SpriteCovers x y n px py ↔ (px, py) ∈ (s.sprite x y n).map wrapTarget := by
  simp only [State.SpriteCovers, if_pos h, List.mem_map, State.mem_sprite]
  constructor
  · rintro ⟨r, c, hr, hc, hbit, rfl, rfl⟩
    exact ⟨_, ⟨r, c, hr, hc, hbit, rfl⟩, rfl⟩
  · rintro ⟨_, ⟨r, c, hr, hc, hbit, rfl⟩, heq⟩
    exact ⟨r, c, hr, hc, hbit, Prod.mk.inj heq⟩

/-- Under FAULT and CLIP the covered pixels are the targets as they stand. -/
theorem State.spriteCovers_of_ne_wrap {s : State} {x y : RegIdx} {n px py : Nat}
    (h : s.params.drawEdgeMode ≠ .wrap) : s.SpriteCovers x y n px py ↔ (px, py) ∈ s.sprite x y n := by
  simp only [State.SpriteCovers, if_neg h, State.mem_sprite, Prod.mk.injEq, @eq_comm _ px, @eq_comm _ py]

/-- A sprite of at most 15 rows and 8 columns does not meet itself when it is wrapped. -/
theorem State.nodup_map_wrapTarget_sprite (s : State) (x y : RegIdx) {n : Nat} (hn : n ≤ 15) :
    ((s.sprite x y n).map wrapTarget).Nodup := by
  refine List.Nodup.map_on (fun t ht u hu heq => ?_) (s.sprite_nodup x y n)
  obtain ⟨r, c, hr, hc, _, rfl⟩ := State.mem_sprite.mp ht
  obtain ⟨r', c', hr', hc', _, rfl⟩ := State.mem_sprite.mp hu
  obtain ⟨hcol, hrow⟩ := Prod.mk.inj heq
  simp only [Config.screenWidth, Config.screenHeight] at hcol hrow
  exact Prod.ext (by simp only; omega) (by simp only; omega)

/-- Under FAULT a draw that goes on has all its targets in the grid, and they are the covered pixels. -/
theorem State.spritePixels_of_fault {s : State} {x y : RegIdx} {n : Nat} (hmode : s.params.drawEdgeMode = .fault)
    (hin : ∀ t ∈ s.sprite x y n, ¬ t.outOfBounds = true) : s.SpritePixels x y n (s.sprite x y n) where
  inGrid t ht := Target.not_outOfBounds_iff.mp (hin t ht)
  nodup := s.sprite_nodup x y n
  covers _ _ _ _ := (State.spriteCovers_of_ne_wrap (by simp [hmode])).symm

theorem State.spritePixels_of_wrap {s : State} {x y : RegIdx} {n : Nat} (hmode : s.params.drawEdgeMode = .wrap)
    (hn : n ≤ 15) : s.SpritePixels x y n ((s.sprite x y n).map wrapTarget) where
  inGrid t ht := by
    obtain ⟨u, _, rfl⟩ := List.mem_map.mp ht
    exact ⟨Nat.mod_lt _ (by decide), Nat.mod_lt _ (by decide)⟩
  nodup := s.nodup_map_wrapTarget_sprite x y hn
  covers _ _ _ _ := (State.spriteCovers_of_wrap hmode).symm

/-- The targets that CLIP keeps. -/
theorem mem_filter_not_outOfBounds {ts : List Target} {t : Target} :
    t ∈ ts.filter (fun t => !t.outOfBounds) ↔ t ∈ ts ∧ t.1 < 64 ∧ t.2 < 32 := by
  rw [List.mem_filter, Bool.not_eq_true', ← Bool.not_eq_true, Target.not_outOfBounds_iff]

theorem State.spritePixels_of_clip {s : State} {x y : RegIdx} {n : Nat} (hmode : s.params.drawEdgeMode = .clip) :
    s.SpritePixels x y n ((s.sprite x y n).filter fun t => !t.outOfBounds) where
  inGrid _ ht := (mem_filter_not_outOfBounds.mp ht).2
  nodup := (s.sprite_nodup x y n).filter _
  covers _ _ hx hy := by
    rw [mem_filter_not_outOfBounds, State.spriteCovers_of_ne_wrap (by simp [hmode])]
    exact and_iff_left ⟨hx, hy⟩

/-- What an edge mode leaves of the targets names the covered pixels, each once. -/
theorem State.spritePixels_of_edgeTargets {s : State} {x y : RegIdx} {n : Nat} {ts : List Target} (hn : n ≤ 15)
    (h : edgeTargets s.params.drawEdgeMode (s.sprite x y n) = .ok ts) : s.SpritePixels x y n ts := by
  cases hmode : s.params.drawEdgeMode with
  | fault =>
    simp only [hmode, edgeTargets] at h
    split at h
    · cases h
    · next hfind =>
      cases h
      exact State.spritePixels_of_fault hmode (List.find?_eq_none.mp hfind)
  | wrap =>
    rw [hmode] at h
    cases h
    exact State.spritePixels_of_wrap hmode hn
  | clip =>
    rw [hmode] at h
    cases h
    exact State.spritePixels_of_clip hmode

/-- The edges do not halt a draw, unless under FAULT a target is out of bounds. -/
theorem State.edgeTargets_ok {s : State} {x y : RegIdx} {n : Nat}
    (h : s.params.drawEdgeMode = .fault → s.SpriteInside x y n) :
    ∃ ts, edgeTargets s.params.drawEdgeMode (s.sprite x y n) = .ok ts := by
  cases hmode : s.params.drawEdgeMode with
  | fault =>
    refine ⟨s.sprite x y n, ?_⟩
    simp only [edgeTargets, List.find?_eq_none.mpr (State.spriteInside_iff.mp (h hmode))]
  | wrap => exact ⟨_, rfl⟩
  | clip => exact ⟨_, rfl⟩

/-- In a sorted list, an element that is the only one up to itself to pass a test is the one the search finds. -/
theorem find?_eq_some_of_pairwise {α : Type} {R : α → α → Prop} {p : α → Bool} {l : List α} {a : α}
    (hsorted : l.Pairwise R) (ha : a ∈ l) (hp : p a = true) (hfirst : ∀ b ∈ l, R b a → ¬ p b = true) :
    l.find? p = some a := by
  obtain ⟨before, after, rfl⟩ := List.append_of_mem ha
  obtain ⟨_, _, hcross⟩ := List.pairwise_append.mp hsorted
  refine List.find?_eq_some_iff_append.mpr ⟨hp, before, after, rfl, fun b hb => ?_⟩
  have hb' := hfirst b (List.mem_append_left _ hb) (hcross b hb a List.mem_cons_self)
  rwa [Bool.not_eq_true', ← Bool.not_eq_true]

/-! ### What a draw answers -/

/-- A draw whose rows are all in memory halts where its edges halt it. -/
theorem exec_drw_of_edgeTargets_error {s : State} {x y : RegIdx} {n : Nat} {r : HaltReason}
    (hmem : accessHalt s.i.toNat n = none) (h : edgeTargets s.params.drawEdgeMode (s.sprite x y n) = .error r) :
    exec (.drw x y n) s = halt r s := by
  rw [State.sprite] at h
  simp only [exec, execDrw, hmem, h]

/-- A draw whose rows are all in memory goes on with the targets that the edges leave. -/
theorem exec_drw_of_edgeTargets_ok {s : State} {x y : RegIdx} {n : Nat} {ts : List Target}
    (hmem : accessHalt s.i.toNat n = none) (h : edgeTargets s.params.drawEdgeMode (s.sprite x y n) = .ok ts) :
    exec (.drw x y n) s = .next (s.drawTargets ts) := by
  rw [State.sprite] at h
  simp only [exec, execDrw, hmem, h]

/-- A draw that leaves the block running has passed both checks. -/
theorem drw_targets_of_running {s t : State} {x y : RegIdx} {n : Nat} (h : exec (.drw x y n) s = .next t)
    (hrun : t.run = .running) : accessHalt s.i.toNat n = none ∧
      ∃ ts, edgeTargets s.params.drawEdgeMode (s.sprite x y n) = .ok ts ∧ t = s.drawTargets ts := by
  rcases exec_next_cases h with ⟨r, rfl⟩ | hgo
  · cases hrun
  · exact hgo

/-! ### The frame and VF after a draw (R119, R121) -/

theorem State.fb_drawTargets (ts : List Target) (s : State) : (s.drawTargets ts).fb = (plot s.fb ts).1 := rfl

theorem State.reg_drawTargets_vf (ts : List Target) (s : State) :
    (s.drawTargets ts).reg vf = flagByte (plot s.fb ts).2 :=
  State.reg_setReg_self vf _ _

theorem toNat_flagByte_eq_one (f : Bool) : (flagByte f).toNat = 1 ↔ f = true := by
  cases f <;> decide

section
variable {s : State} {x y : RegIdx} {n : Nat} {ts : List Target} (h : s.SpritePixels x y n ts)
include h

/-- The frame after a draw: the targets inverted. -/
theorem State.SpritePixels.pixel_plot (fb : Framebuffer) (px py : Nat) :
    (plot fb ts).1.pixel px py = (fb.pixel px py ^^ decide ((px, py) ∈ ts)) :=
  plot_pixel ts fb false h.inGrid h.nodup px py

/-- A draw changes the covered pixels and no other. -/
theorem State.SpritePixels.pixel_plot_ne_iff (fb : Framebuffer) {px py : Nat} (hx : px < 64) (hy : py < 32) :
    (plot fb ts).1.pixel px py ≠ fb.pixel px py ↔ s.SpriteCovers x y n px py := by
  rw [← h.covers px py hx hy, h.pixel_plot]
  by_cases hmem : (px, py) ∈ ts <;> simp [hmem]

/-- A draw collides when a covered pixel is set. -/
theorem State.SpritePixels.plot_collides_iff (fb : Framebuffer) :
    (plot fb ts).2 = true ↔ ∃ px py, px < 64 ∧ py < 32 ∧ s.SpriteCovers x y n px py ∧ fb.pixel px py = true := by
  have hany : (plot fb ts).2 = ts.any fun t => fb.pixel t.1 t.2 := plot_collision ts fb false h.inGrid h.nodup
  rw [hany, List.any_eq_true]
  constructor
  · rintro ⟨⟨px, py⟩, hmem, hset⟩
    obtain ⟨hx, hy⟩ := h.inGrid _ hmem
    exact ⟨px, py, hx, hy, (h.covers px py hx hy).mp hmem, hset⟩
  · rintro ⟨px, py, hx, hy, hcov, hset⟩
    exact ⟨(px, py), (h.covers px py hx hy).mpr hcov, hset⟩

/-- Two draws invert every target twice (R123). -/
theorem State.SpritePixels.plot_plot (fb : Framebuffer) : (plot (plot fb ts).1 ts).1 = fb := by
  refine Framebuffer.ext_pixel fun px py _ _ => ?_
  rw [h.pixel_plot, h.pixel_plot, Bool.xor_assoc, Bool.xor_self, Bool.xor_false]

/-- The second draw collides where the first one found a covered pixel clear. -/
theorem State.SpritePixels.plot_plot_collides_iff (fb : Framebuffer) : (plot (plot fb ts).1 ts).2 = true ↔
    ∃ px py, px < 64 ∧ py < 32 ∧ s.SpriteCovers x y n px py ∧ fb.pixel px py = false := by
  rw [h.plot_collides_iff]
  refine exists_congr fun px => exists_congr fun py => and_congr_right fun hx => and_congr_right fun hy =>
    and_congr_right fun hcov => ?_
  rw [h.pixel_plot, decide_eq_true ((h.covers px py hx hy).mpr hcov), Bool.xor_true, Bool.not_eq_true']

end

/-! ### The claims -/

/-- Settles O51: the two checks pass, and the draw inverts the targets that the edge mode leaves. -/
theorem drawInvertsTheCoveredPixels : Obligations.DrawInvertsTheCoveredPixels := by
  intro s x y n hn hmem hinside
  obtain ⟨ts, hts⟩ := State.edgeTargets_ok hinside
  have hpix := State.spritePixels_of_edgeTargets hn hts
  refine ⟨_, exec_drw_of_edgeTargets_ok (accessHalt_none_of _ n hmem) hts, rfl, rfl, rfl, fun _ => rfl,
    fun z hz => State.reg_drawTargets_other ts s hz.symm, fun px py hx hy => ?_, ?_, ?_⟩
  · exact hpix.pixel_plot_ne_iff s.fb hx hy
  · rw [State.reg_drawTargets_vf, toNat_flagByte_eq_one, hpix.plot_collides_iff]
  · rw [State.reg_drawTargets_vf, toNat_flagByte]
    exact Bool.toNat_le _

/-- Settles O52: the targets come in row-major order, so the search of the edge check stops at the first one outside. -/
theorem drawOutsideGridHaltsUnderFault : Obligations.DrawOutsideGridHaltsUnderFault := by
  intro s x y n r c hmem hmode hr hc hbit hout hfirst
  have hfind : (s.sprite x y n).find? Target.outOfBounds = some ((s.reg x).toNat + c, (s.reg y).toNat + r) := by
    refine find?_eq_some_of_pairwise (spriteTargets_sorted _ _ _) (State.mem_sprite.mpr ⟨r, c, hr, hc, hbit, rfl⟩)
      (Target.outOfBounds_iff.mpr hout) fun b hb hbefore => ?_
    obtain ⟨r', c', hr', hc', hbit', rfl⟩ := State.mem_sprite.mp hb
    exact Target.not_outOfBounds_iff.mpr (hfirst r' c' hr' hc' hbit' (by simp only at hbefore; omega))
  have hedge : edgeTargets s.params.drawEdgeMode (s.sprite x y n) =
      .error (.drawOutOfBounds ((s.reg x).toNat + c) ((s.reg y).toNat + r)) := by
    simp only [edgeTargets, hmode, hfind]
  exact onlyHalted_of_exec_eq_halt (exec_drw_of_edgeTargets_error (accessHalt_none_of _ n hmem) hedge)

/-- Settles O53: the first draw changes nothing that the targets depend on, so the second one plots the same targets. -/
theorem drawingTwiceRestoresTheFrame : Obligations.DrawingTwiceRestoresTheFrame := by
  intro s t x y n hn hrun hexec htrun hx hy
  obtain ⟨hmem, ts, hts, rfl⟩ := drw_targets_of_running hexec htrun
  have hpix := State.spritePixels_of_edgeTargets hn hts
  have hsprite : (s.drawTargets ts).sprite x y n = s.sprite x y n := by
    rw [State.sprite, hx, hy]
    rfl
  have hagain : exec (.drw x y n) (s.drawTargets ts) = .next ((s.drawTargets ts).drawTargets ts) :=
    exec_drw_of_edgeTargets_ok hmem (hsprite ▸ hts)
  refine ⟨_, hagain, hrun, hpix.plot_plot s.fb, ?_⟩
  rw [State.reg_drawTargets_vf, toNat_flagByte_eq_one]
  exact hpix.plot_plot_collides_iff s.fb

/-- Reset with every pixel set: the sprite at I is the top row of the font's 0, drawn at (0, 0). -/
def fullFrame : State := { State.reset with fb := Vector.replicate 32 (BitVec.allOnes 64) }

/-- Refutes O54: on a full frame the first draw clears every covered pixel, and the second finds none of them set. -/
theorem not_secondDrawAlwaysCollidesIfTheSpriteHasATarget :
    ¬ Obligations.SecondDrawAlwaysCollidesIfTheSpriteHasATarget := by
  intro h
  have hiff := h fullFrame _ _ 0 0 1 (by decide) rfl rfl rfl rfl rfl rfl
  have hcovers : fullFrame.SpriteCovers 0 0 1 0 0 := ⟨0, 0, by decide, by decide, by decide, by decide⟩
  exact absurd (hiff.mpr ⟨0, 0, by decide, by decide, hcovers⟩) (by decide)

end Sys2Proof.Machine
end

section
/-!
SUPPORT. Keys and timers (44_keys_timers.md): the word that LD Vx, K decodes from, what each instruction answers, where the
tick's key sample comes from, and which key the scan finds. The claims about Ex9E, ExA1, Fx07, Fx0A, Fx15 and Fx18 are read
off from these.
-/

namespace Sys2Proof

open Config (ZeroFamilyDecode)

/-- The word of LD Vx, K (30_encoding.md R72, R74). -/
theorem decode_of_familyF_selector0A {op : Word} (z : ZeroFamilyDecode) (h : opFamily op = 0xF)
    (hk : (opKK op).toNat = 0x0A) : decode z op = .ok (.ldVxK (opX op)) := by
  rw [decode_of_familyF z h]
  simp only [decodeFamilyF, hk]

end Sys2Proof

namespace Sys2Proof.Machine

/-! ### The key sample of the tick (10_state.md R39, log 9) -/

theorem State.keys_of_queued {s : State} {t : TickInput} {rest : List TickInput} (h : s.inputs = t :: rest) :
    s.keys = t.keys := by
  rw [State.keys, h]

theorem State.keys_of_none {s : State} (h : s.inputs = []) : s.keys = Config.freeKeys s.ticks := by
  rw [State.keys, h]

/-! ### The scan for a pressed key (R127) -/

/-- The scan runs in index order, so a held key with no held key below it is the one it finds. -/
theorem firstPressed_of_least {keys : BitVec 16} {k : RegIdx} (hk : keys.getLsbD k.val = true)
    (hleast : ∀ j : RegIdx, j.val < k.val → keys.getLsbD j.val = false) : firstPressed keys = some k :=
  find?_eq_some_of_pairwise (List.sortedLT_finRange 16).pairwise (List.mem_finRange k) hk
    fun j _ hj => ne_true_of_eq_false (hleast j hj)

theorem firstPressed_of_none {keys : BitVec 16} (h : ∀ k : RegIdx, keys.getLsbD k.val = false) :
    firstPressed keys = none :=
  List.find?_eq_none.mpr fun k _ => ne_true_of_eq_false (h k)

/-- A key index is a byte. -/
theorem toNat_keyByte (k : RegIdx) : (keyByte k).toNat = k.val :=
  Nat.mod_eq_of_lt (k.isLt.trans (by decide))

/-! ### What the instructions answer -/

/-- Ex9E with the index of a key (R125). -/
theorem exec_skp_of_key {s : State} {x : RegIdx} (h : (s.reg x).toNat ≤ 15) :
    exec (.skp x) s = .next (s.skipIf (s.keys.getLsbD (s.reg x).toNat)) :=
  if_neg (Nat.not_lt.mpr h)

/-- ExA1 with the index of a key (R126). -/
theorem exec_sknp_of_key {s : State} {x : RegIdx} (h : (s.reg x).toNat ≤ 15) :
    exec (.sknp x) s = .next (s.skipIf (!s.keys.getLsbD (s.reg x).toNat)) :=
  if_neg (Nat.not_lt.mpr h)

/-- Ex9E with an index past the last key (R124, D18). -/
theorem exec_skp_of_noKey {s : State} {x : RegIdx} (h : 15 < (s.reg x).toNat) :
    exec (.skp x) s = halt (.keyIndexOutOfRange (s.reg x)) s :=
  if_pos h

/-- ExA1 with an index past the last key (R124, D18). -/
theorem exec_sknp_of_noKey {s : State} {x : RegIdx} (h : 15 < (s.reg x).toNat) :
    exec (.sknp x) s = halt (.keyIndexOutOfRange (s.reg x)) s :=
  if_pos h

/-- Fx0A with a key pressed writes one register and moves on. -/
theorem exec_ldVxK_of_pressed {s : State} {k : RegIdx} (x : RegIdx) (h : firstPressed s.keys = some k) :
    exec (.ldVxK x) s = .next (s.setReg x (keyByte k)).advance := by
  simp only [exec, execLdVxK, h]
  rfl

/-- Fx0A with no key pressed leaves the state as it is. -/
theorem exec_ldVxK_of_none {s : State} (x : RegIdx) (h : firstPressed s.keys = none) :
    exec (.ldVxK x) s = .next s := by
  simp only [exec, execLdVxK, h]
  rfl

theorem exec_ldVxDt (x : RegIdx) (s : State) : exec (.ldVxDt x) s = .next (s.setReg x s.dt).advance := rfl

theorem exec_ldDtVx (x : RegIdx) (s : State) : exec (.ldDtVx x) s = .next (s.setDelay (s.reg x)).advance := rfl

theorem exec_ldStVx (x : RegIdx) (s : State) : exec (.ldStVx x) s = .next (s.setSound (s.reg x)).advance := rfl

/-! ### The claims -/

/-- Settles O55: V[x] decides between the skip on its key and the halt, and the sample is the queued or the free one. -/
theorem keySkipsTestTheSample : Obligations.KeySkipsTestTheSample := by
  intro s x
  refine ⟨fun _ _ _ => State.keys_of_queued, State.keys_of_none, fun hkey => ⟨?_, ?_⟩, fun hnokey => ⟨?_, ?_⟩⟩
  · exact ⟨_, exec_skp_of_key hkey, s.onlyPc_skipIf _, rfl⟩
  · refine ⟨_, exec_sknp_of_key hkey, s.onlyPc_skipIf _, ?_⟩
    cases s.keys.getLsbD (s.reg x).toNat <;> rfl
  · exact onlyHalted_of_exec_eq_halt (exec_skp_of_noKey hnokey)
  · exact onlyHalted_of_exec_eq_halt (exec_sknp_of_noKey hnokey)

/-- Settles O56: the scan finds the least held key, whose index goes to V[x]; when it finds none, the state stays. -/
theorem keyWaitTakesTheLeastHeldKey : Obligations.KeyWaitTakesTheLeastHeldKey := by
  refine ⟨fun z _ => decode_of_familyF_selector0A z, fun s x => ⟨fun k hk hleast => ?_, fun hnone => ?_⟩⟩
  · refine ⟨_, exec_ldVxK_of_pressed x (firstPressed_of_least hk hleast), (s.wroteReg_setReg x _).own, ?_⟩
    rw [State.advance_reg, State.reg_setReg_self, toNat_keyByte]
  · exact exec_ldVxK_of_none x (firstPressed_of_none hnone)

/-- Settles O57: Fx07 writes one general register, and Fx15 and Fx18 write one timer each. -/
theorem timerRegistersReadAndWrite : Obligations.TimerRegistersReadAndWrite := by
  intro s x
  refine ⟨?_, ?_, ?_⟩
  · exact ⟨_, exec_ldVxDt x s, s.wroteReg_setReg x s.dt⟩
  · exact ⟨_, exec_ldDtVx x s, rfl, fun _ => rfl⟩
  · exact ⟨_, exec_ldStVx x s, rfl, fun _ => rfl⟩

end Sys2Proof.Machine
end

section
/-!
SUPPORT. The tick and its exceptions (60_exceptions.md R131 to R143): a tick runs the instruction that was fetched and then,
unless it halted, the timer update; which events an instruction and a timer update emit. The claims about the whole tick
are read off from these.
-/

namespace Sys2Proof.Machine

/-! ### The instruction of the tick (R131) -/

/-- Fetch and decode find the instruction at PC. -/
theorem State.fetchInstr_of_nextInstr {s : State} {i : Instr} (h : s.NextInstr i) : s.fetchInstr = .ok i := by
  obtain ⟨hpc, hdecode⟩ := h
  simp only [State.fetchInstr, State.fetch_of_inside hpc, hdecode]

/-- A tick that fetched an instruction executes it and ends. -/
theorem step_of_fetchInstr_ok {s : State} {i : Instr} (hready : s.Ready) (h : s.beginTick.fetchInstr = .ok i) :
    step s = finishTick (exec i s.beginTick) := by
  obtain ⟨hrun, hloaded⟩ := hready
  simp only [step, hrun, hloaded, h]

/-- A tick of a ready block executes the instruction at PC and ends. -/
theorem step_of_nextInstr {s : State} {i : Instr} (hready : s.Ready) (hnext : s.NextInstr i) :
    step s = finishTick (exec i s.beginTick) :=
  step_of_fetchInstr_ok hready (State.fetchInstr_of_nextInstr (s := s.beginTick) hnext)

/-- An instruction answers a next state: a halt is one, and nothing is refused (R132). -/
theorem exists_exec_eq_next (i : Instr) (s : State) : ∃ t, exec i s = .next t := by
  rcases exec_cases i s with ⟨r, hhalt⟩ | ⟨t, hnext, _⟩
  · exact ⟨_, hhalt⟩
  · exact ⟨t, hnext⟩

/-- A step that did not leave the block RUNNING ends its tick as it is (R143). -/
theorem State.endTick_of_not_running {s : State} (h : s.run ≠ .running) : s.endTick = s := by
  cases hrun : s.run with
  | running => exact absurd hrun h
  | halted r => simp only [State.endTick, hrun]

/-! ### The audio event of the timer update (R142, D24) -/

/-- The audio event as a function of ST before the update: none at 0, Audio.Stop at 1, and Audio.Start above. -/
theorem audioEvents_eq_of_toNat (b : Byte) :
    audioEvents b = if b.toNat = 0 then [] else if b.toNat = 1 then [.audioStop] else [.audioStart] := by
  have hzero : b = 0 ↔ b.toNat = 0 := BitVec.toNat_eq
  have hstop : countDown b = 0 ↔ b.toNat - 1 = 0 := by rw [← toNat_countDown]; exact BitVec.toNat_eq
  by_cases h0 : b.toNat = 0
  · rw [audioEvents, if_pos (hzero.mpr h0), if_pos h0]
  · have hone : b.toNat - 1 = 0 ↔ b.toNat = 1 := by omega
    simp only [audioEvents, hzero, hstop, hone]

/-- The same, with ST as a byte. -/
theorem audioEvents_eq (b : Byte) :
    audioEvents b = if b = 0 then [] else if b = 1 then [.audioStop] else [.audioStart] := by
  have hzero : b = 0 ↔ b.toNat = 0 := BitVec.toNat_eq
  have hone : b = 1 ↔ b.toNat = 1 := BitVec.toNat_eq
  simp only [audioEvents_eq_of_toNat, hzero, hone]

/-- The end of a tick that goes on, written out: both timers one down while above 0, the audio event, and the tick's input
used up. -/
theorem State.timerTick_nextInput_eq (t : State) : t.timerTick.nextInput = { t with
    dt := if t.dt = 0 then 0 else t.dt - 1
    st := if t.st = 0 then 0 else t.st - 1
    events := t.events ++ (if t.st = 0 then [] else if t.st = 1 then [.audioStop] else [.audioStart])
    inputs := t.inputs.tail
    ticks := t.ticks + 1 } := by
  rw [← audioEvents_eq]
  rfl

/-! ### The display event of an instruction (R146, D27) -/

/-- An instruction that goes on emits its display event and no other. -/
theorem GoesOn.events {i : Instr} {s t : State} (h : GoesOn i s t) : t.events = s.events ++ displayEvents i t.fb := by
  cases i with
  | cls =>
    cases h
    rfl
  | drw _ _ _ =>
    obtain ⟨_, _, _, rfl⟩ := h
    rfl
  | ret | call _ | ldB _ | storeRegs _ | loadRegs _ | skp _ | sknp _ =>
    obtain ⟨_, rfl⟩ := h
    simp [displayEvents]
  | _ =>
    cases h
    simp [displayEvents]

/-! ### The claims -/

/-- Settles O12: a halt in the fetch is a next state, and so is the end of a tick that executed an instruction. -/
theorem readyBlockAlwaysTicks : Obligations.ReadyBlockAlwaysTicks := by
  intro s hready
  cases hfetch : s.beginTick.fetchInstr with
  | error r => exact ⟨_, step_of_fetchInstr_error hready hfetch⟩
  | ok i =>
    obtain ⟨t, hexec⟩ := exists_exec_eq_next i s.beginTick
    refine ⟨t.endTick, ?_⟩
    rw [step_of_fetchInstr_ok hready hfetch, hexec]
    rfl

/-- Settles O13: a tick either takes a halt at its start state, or leaves the block as RUNNING as it found it. -/
theorem haltingTickWritesNothingElse : Obligations.HaltingTickWritesNothingElse := by
  intro s t hstep hrun
  obtain ⟨hrunning, _, ⟨r, rfl⟩ | ⟨i, u, _, _, hgo, rfl⟩⟩ := step_next_cases hstep
  · exact ⟨r, rfl, s.beginTick.onlyHalted_takeHalt r⟩
  · exact absurd (hgo.sameSetup.run.trans hrunning) hrun

/-- Settles O15: the tick starts with no event, the instruction adds its display event, and the timer update the audio event
of the ST that the instruction left. -/
theorem tickEmitsDisplayThenAudio : Obligations.TickEmitsDisplayThenAudio := by
  intro s t i _ hnext hstep hrun
  obtain ⟨u, hgo, rfl⟩ := step_running_goesOn hnext hstep hrun
  have hdisplay : u.events = displayEvents i u.fb := hgo.events
  have hst : u.st = soundAfterStep i s := hgo.frame.sound
  rw [State.nextInput_events, State.timerTick_events, State.nextInput_fb, State.timerTick_fb, hdisplay, hst,
    audioEvents_eq_of_toNat]

/-- Settles O7: the tick executes what it fetched, and its end looks at the run state that the instruction left. -/
theorem stepRunsTheDecodedInstruction : Obligations.StepRunsTheDecodedInstruction := by
  intro s i hready hnext
  have hstep : step s = finishTick (exec i s.beginTick) := step_of_nextInstr hready hnext
  refine ⟨hstep, fun t hexec => ?_⟩
  have hend : step s = .next t.endTick := hstep.trans (congrArg finishTick hexec)
  refine ⟨fun hrun => ?_, fun hrun => ?_⟩
  · rw [hend, State.endTick_running hrun, State.timerTick_nextInput_eq]
  · rw [hend, State.endTick_of_not_running hrun]

end Sys2Proof.Machine
end
